-- ==== Sys2Proof/Word.lean ====
section
/-! DEFINITION. The two word types of the CORE and the concatenation notation of rule R7. -/

namespace Sys2Proof

/-- An 8-bit value: a register of the register file, or the addressable unit of memory (R20, R50). -/
abbrev Byte := BitVec 8

/-- A 16-bit value: SP, PC, a register pair, an address (R20, R21, R50). -/
abbrev Word := BitVec 16

/-- `v[15:8]` (R7). -/
def hiByte (v : Word) : Byte := v.extractLsb' 8 8

/-- `v[7:0]` (R7). -/
def loByte (v : Word) : Byte := v.extractLsb' 0 8

/-- `{hi, lo}`: concatenation with the first operand in the high bits (R7). -/
def wordOf (hi lo : Byte) : Word := hi ++ lo

end Sys2Proof
end

