-- ==== Sys2Proof/Config.lean ====
section
/-! DEFINITION. The parameters of the CORE: what one machine fixes and the spec leaves as an argument (R5, U6, U9).
The parameters the spec fixes (widths, region bases and sizes, the prefix byte) are written where they are used. -/

namespace Sys2Proof

/-- The parameters an engine is built with. They are plain data and no step changes them; every statement about a
state holds for every value of them that it does not restrict. -/
structure Config where
  /-- `ROM_SIZE`: the size in bytes of the ROM region (R5, R51); `256 <= ROM_SIZE <= 0x8000`. -/
  romSize : Nat
  /-- `DEBUG_ENABLED`: whether the debugger hook exists (R5, R262). -/
  debugEnabled : Bool
  /-- `ACC_ROTATE_Z_FROM_RESULT` (U6): true, the spec's rules R223 to R226; false, Z is cleared by RLCA, RRCA, RLA, RRA. -/
  accRotateZFromResult : Bool
  /-- `DECIDED_ROWS_PRESENT` (U9): whether the 64 rows of basis "decision" are in the dispatch table. -/
  decidedRowsPresent : Bool
  deriving DecidableEq, Repr

/-- The range rule R5 gives `ROM_SIZE`, so that ROM ends below video RAM (R51). -/
def Config.wf (cfg : Config) : Bool :=
  decide (256 ≤ cfg.romSize) && decide (cfg.romSize ≤ 0x8000)

end Sys2Proof
end

