-- ==== Sys2Proof/Machine/Launch.lean ====
section
/-! DEFINITION. What the spec leaves to whoever builds the engine and the model had to name a value for, in one place. -/

namespace Sys2Proof.Machine

/-- The parameters of the machine `State.reset` describes. DESIGN CHOICE, log entries 3, 7 and 21: `ROM_SIZE` 256, the least
size rule R5 allows and the one of the spec's test vectors; no debugger (part 3 of 95_test_vectors.md); the two optional
parameters at the defaults U6 and U9 give. Any other machine is a state with another `config`. -/
def launchConfig : Config :=
  { romSize := 256, debugEnabled := false, accRotateZFromResult := true, decidedRowsPresent := true }

/-- What a mapped address that the memory list does not hold reads as. In ROM it is the zero fill of R54; in VRAM and IO
it is the default of `VRAM_INIT` and `IO_INIT` (R56): DESIGN CHOICE, log entry 4. -/
def unlistedByte : Byte := 0x00

end Sys2Proof.Machine
end

