-- ==== Sys2Proof/Machine/State.lean ====
section
/-! DEFINITION. The state of the CORE (10_state.md), the reasons a run stops, and the state right after construction with
an empty ROM image (R37). -/

namespace Sys2Proof.Machine

/-- The three fatal errors of the CORE with what they carry (R241 to R245, R247). A faulting cycle ends in a NEXT state
whose engine is `haltedOnError` with one of these (R246); `step` of that state answers it as the outcome, because no cycle
runs any more (R240, R249). -/
inductive Fault
  /-- DecodeError (R243): raised by the sequencer when the dispatch key has no row. Safe: the spec's own stop. -/
  | decodeError (key : Word) (instrAddr : Word)
  /-- UnmappedAddressError (R242): raised by a byte read or write of an address outside the three regions, and by a write to
  ROM, with the faulting byte address. Safe: the spec's own stop. -/
  | unmappedAddressError (addr : Word)
  /-- InvalidJumpError (R244): raised by a taken JR whose target leaves `[0, 0xFFFF]`, with the `pc` after the operand and
  the signed offset. Safe: the spec's own stop. -/
  | invalidJumpError (pc : Word) (offset : Int)
  deriving DecidableEq, Repr

/-- Why the model gives an instruction no meaning. -/
inductive Refusal
  /-- Raised by an arm of `exec` whose instruction has no meaning yet. Safe. No arm is in this case. -/
  | notModelled (mnemonic : String)
  deriving DecidableEq, Repr

/-- The two states of the execution sequencer (R33, R240). The report beside the terminal one is the diagnostic of R247:
an output of the block, kept here because a step has no output of its own (log entry 2). -/
inductive Engine
  | running
  | haltedOnError (report : Fault)
  deriving DecidableEq, Repr

/-- All the state of the CORE (R20, R33, R35), with the parameters the engine was built with (R5). -/
structure State where
  a : Byte
  b : Byte
  c : Byte
  d : Byte
  e : Byte
  /-- The flag register: Z, N, H, C in bits 7 to 4, bits 3:0 hardwired to zero by every write (R24, R27). -/
  f : Byte
  h : Byte
  l : Byte
  /-- The stack pointer (R31). -/
  sp : Word
  /-- The program counter (R28). -/
  pc : Word
  /-- The three arrays ROM, VRAM and IO (R35) as one list of (address, byte) pairs with rising addresses; an address it
  does not hold reads as `unlistedByte`. -/
  mem : List Host.Cell
  /-- The engine state (R33). -/
  engine : Engine
  /-- The parameters of this machine (R5); no step changes them. -/
  config : Config
  deriving DecidableEq, Repr

/-- The state after construction and reset (R37), with `ROM_IMAGE` empty and `VRAM_INIT`, `IO_INIT` at their default. -/
def State.reset : State :=
  { a := 0, b := 0, c := 0, d := 0, e := 0, f := 0, h := 0, l := 0, sp := 0, pc := 0, mem := [],
    engine := .running, config := launchConfig }

/-- What a step or a meaning answers. -/
abbrev Result := Host.Outcome State Fault Refusal

end Sys2Proof.Machine
end

