-- ==== Sys2Proof/Machine/Memory.lean ====
section
/-! DEFINITION. The address translator (R50 to R53) and the list that holds the three arrays (R35). -/

namespace Sys2Proof.Machine

/-! ### The list of cells -/

/-- The byte the list holds for an address, or what an unlisted address reads as. -/
def Memory.read : List Host.Cell → Nat → Byte
  | [], _ => unlistedByte
  | (a, v) :: rest, k => if k = a then v else Memory.read rest k

/-- The list with one byte written. It stays in the canonical form: writing what an unlisted address reads as removes the
entry. -/
def Memory.write : List Host.Cell → Nat → Byte → List Host.Cell
  | [], k, v => if v = unlistedByte then [] else [(k, v)]
  | (a, u) :: rest, k, v =>
    if k < a then (if v = unlistedByte then (a, u) :: rest else (k, v) :: (a, u) :: rest)
    else if k = a then (if v = unlistedByte then rest else (k, v) :: rest)
    else (a, u) :: Memory.write rest k v

/-- Every address of the list is above `k`, the addresses rise strictly, and no entry equals what an unlisted address
reads as. -/
def Memory.wfAbove : Nat → List Host.Cell → Bool
  | _, [] => true
  | k, (a, v) :: rest => decide (k < a) && (v != unlistedByte) && Memory.wfAbove a rest

/-- The canonical form: equal memories are equal lists. -/
def Memory.wf : List Host.Cell → Bool
  | [] => true
  | (a, v) :: rest => (v != unlistedByte) && Memory.wfAbove a rest

/-! ### The address translator -/

/-- The three regions (R51). -/
inductive Region
  | rom | vram | io
  deriving DecidableEq, Repr

/-- The first address of each region (R51). -/
def Region.base : Region → Nat
  | .rom => 0x0000
  | .vram => 0x8000
  | .io => 0xFF00

/-- The size of each region in bytes: `ROM_SIZE`, `VRAM_SIZE` and `IO_SIZE` (R5, R51). -/
def Region.size (cfg : Config) : Region → Nat
  | .rom => cfg.romSize
  | .vram => 0x2000
  | .io => 0x80

/-- Whether the region takes writes (R51). -/
def Region.writable : Region → Bool
  | .rom => false
  | .vram => true
  | .io => true

/-- `Translate(addr)`: the region of an address and the offset into its array; `none` is "unmapped" (R52). -/
def translate (cfg : Config) (addr : Word) : Option (Region × Nat) :=
  if addr.toNat < cfg.romSize then some (.rom, addr.toNat)
  else if 0x8000 ≤ addr.toNat ∧ addr.toNat ≤ 0x9FFF then some (.vram, addr.toNat - 0x8000)
  else if 0xFF00 ≤ addr.toNat ∧ addr.toNat ≤ 0xFF7F then some (.io, addr.toNat - 0xFF00)
  else none

/-- The key under which the list of cells holds a byte of a region: regions never overlap (R51), so the region's base plus
the offset names one byte. -/
def Region.cell (r : Region) (offset : Nat) : Nat := r.base + offset

/-- Whether a byte of memory exists at an address (R52, R53). -/
def mapped (cfg : Config) (addr : Word) : Bool := (translate cfg addr).isSome

end Sys2Proof.Machine
end

