-- ==== Sys2Proof/Syntax.lean ====
section
/-! DEFINITION. The instructions of the CORE: one constructor of `Instr` per row of spec/opcode_table.json, and the
operand kinds the rows are built from (R96, R97, R98). A constructor carries the immediate its row consumes. -/

namespace Sys2Proof

/-- The 8-bit registers an operand code names (R96). F has no code. -/
inductive Reg8
  | b | c | d | e | h | l | a
  deriving DecidableEq, Repr

/-- What an 8-bit operand code names: a register, or the memory byte at the address in HL (R96). -/
inductive Operand8
  | reg (r : Reg8)
  | indHl
  deriving DecidableEq, Repr

/-- The register pairs (R21); also what PUSH and POP name (`rp2`, R97). -/
inductive Pair
  | bc | de | hl | af
  deriving DecidableEq, Repr

/-- The 16-bit operands of LD rr,d16, INC rr and DEC rr (`rp`, R97). -/
inductive Wide
  | bc | de | hl | sp
  deriving DecidableEq, Repr

/-- The conditions of JR, JP, CALL and RET (R98): NZ, Z, NC, C. -/
inductive Cond
  | nz | z | nc | c
  deriving DecidableEq, Repr

/-- One constructor per row of spec/opcode_table.json, in the table's order. The name is the row's mnemonic with
`Ind` for parentheses: `ldAIndHlInc` is `LD A,(HL+)`. The four one-byte accumulator rotates end in `Acc`, so that
`rlcaAcc` (RLCA) is not mistaken for `rlcA` (RLC A). -/
inductive Instr
  | ldBcD16 (d16 : Word)
  | ldIndBcA
  | incBc
  | incB
  | decB
  | ldBD8 (d8 : Byte)
  | rlcaAcc
  | ldAIndBc
  | decBc
  | incC
  | decC
  | ldCD8 (d8 : Byte)
  | rrcaAcc
  | ldDeD16 (d16 : Word)
  | ldIndDeA
  | incDe
  | incD
  | decD
  | ldDD8 (d8 : Byte)
  | rlaAcc
  | jrE8 (e8 : Byte)
  | ldAIndDe
  | decDe
  | incE
  | decE
  | ldED8 (d8 : Byte)
  | rraAcc
  | jrNzE8 (e8 : Byte)
  | ldHlD16 (d16 : Word)
  | ldIndHlIncA
  | incHl
  | incH
  | decH
  | ldHD8 (d8 : Byte)
  | jrZE8 (e8 : Byte)
  | ldAIndHlInc
  | decHl
  | incL
  | decL
  | ldLD8 (d8 : Byte)
  | jrNcE8 (e8 : Byte)
  | ldSpD16 (d16 : Word)
  | ldIndHlDecA
  | incSp
  | incIndHl
  | decIndHl
  | ldIndHlD8 (d8 : Byte)
  | jrCE8 (e8 : Byte)
  | ldAIndHlDec
  | decSp
  | incA
  | decA
  | ldAD8 (d8 : Byte)
  | ldBB
  | ldBC
  | ldBD
  | ldBE
  | ldBH
  | ldBL
  | ldBIndHl
  | ldBA
  | ldCB
  | ldCC
  | ldCD
  | ldCE
  | ldCH
  | ldCL
  | ldCIndHl
  | ldCA
  | ldDB
  | ldDC
  | ldDD
  | ldDE
  | ldDH
  | ldDL
  | ldDIndHl
  | ldDA
  | ldEB
  | ldEC
  | ldED
  | ldEE
  | ldEH
  | ldEL
  | ldEIndHl
  | ldEA
  | ldHB
  | ldHC
  | ldHD
  | ldHE
  | ldHH
  | ldHL
  | ldHIndHl
  | ldHA
  | ldLB
  | ldLC
  | ldLD
  | ldLE
  | ldLH
  | ldLL
  | ldLIndHl
  | ldLA
  | ldIndHlB
  | ldIndHlC
  | ldIndHlD
  | ldIndHlE
  | ldIndHlH
  | ldIndHlL
  | ldIndHlA
  | ldAB
  | ldAC
  | ldAD
  | ldAE
  | ldAH
  | ldAL
  | ldAIndHl
  | ldAA
  | addAB
  | addAC
  | addAD
  | addAE
  | addAH
  | addAL
  | addAIndHl
  | addAA
  | subB
  | subC
  | subD
  | subE
  | subH
  | subL
  | subIndHl
  | subA
  | andB
  | andC
  | andD
  | andE
  | andH
  | andL
  | andIndHl
  | andA
  | xorB
  | xorC
  | xorD
  | xorE
  | xorH
  | xorL
  | xorIndHl
  | xorA
  | orB
  | orC
  | orD
  | orE
  | orH
  | orL
  | orIndHl
  | orA
  | cpB
  | cpC
  | cpD
  | cpE
  | cpH
  | cpL
  | cpIndHl
  | cpA
  | retNz
  | popBc
  | jpNzA16 (a16 : Word)
  | jpA16 (a16 : Word)
  | callNzA16 (a16 : Word)
  | pushBc
  | addAD8 (d8 : Byte)
  | retZ
  | ret
  | jpZA16 (a16 : Word)
  | callZA16 (a16 : Word)
  | callA16 (a16 : Word)
  | retNc
  | popDe
  | jpNcA16 (a16 : Word)
  | callNcA16 (a16 : Word)
  | pushDe
  | subD8 (d8 : Byte)
  | retC
  | jpCA16 (a16 : Word)
  | callCA16 (a16 : Word)
  | ldhIndA8A (a8 : Byte)
  | popHl
  | ldIndCA
  | pushHl
  | andD8 (d8 : Byte)
  | jpHl
  | ldIndA16A (a16 : Word)
  | xorD8 (d8 : Byte)
  | ldhAIndA8 (a8 : Byte)
  | popAf
  | ldAIndC
  | pushAf
  | orD8 (d8 : Byte)
  | ldAIndA16 (a16 : Word)
  | cpD8 (d8 : Byte)
  | rlcB
  | rlcC
  | rlcD
  | rlcE
  | rlcH
  | rlcL
  | rlcIndHl
  | rlcA
  | rrcB
  | rrcC
  | rrcD
  | rrcE
  | rrcH
  | rrcL
  | rrcIndHl
  | rrcA
  | rlB
  | rlC
  | rlD
  | rlE
  | rlH
  | rlL
  | rlIndHl
  | rlA
  | rrB
  | rrC
  | rrD
  | rrE
  | rrH
  | rrL
  | rrIndHl
  | rrA
  | slaB
  | slaC
  | slaD
  | slaE
  | slaH
  | slaL
  | slaIndHl
  | slaA
  | sraB
  | sraC
  | sraD
  | sraE
  | sraH
  | sraL
  | sraIndHl
  | sraA
  | srlB
  | srlC
  | srlD
  | srlE
  | srlH
  | srlL
  | srlIndHl
  | srlA
  | bit0B
  | bit0C
  | bit0D
  | bit0E
  | bit0H
  | bit0L
  | bit0IndHl
  | bit0A
  | bit1B
  | bit1C
  | bit1D
  | bit1E
  | bit1H
  | bit1L
  | bit1IndHl
  | bit1A
  | bit2B
  | bit2C
  | bit2D
  | bit2E
  | bit2H
  | bit2L
  | bit2IndHl
  | bit2A
  | bit3B
  | bit3C
  | bit3D
  | bit3E
  | bit3H
  | bit3L
  | bit3IndHl
  | bit3A
  | bit4B
  | bit4C
  | bit4D
  | bit4E
  | bit4H
  | bit4L
  | bit4IndHl
  | bit4A
  | bit5B
  | bit5C
  | bit5D
  | bit5E
  | bit5H
  | bit5L
  | bit5IndHl
  | bit5A
  | bit6B
  | bit6C
  | bit6D
  | bit6E
  | bit6H
  | bit6L
  | bit6IndHl
  | bit6A
  | bit7B
  | bit7C
  | bit7D
  | bit7E
  | bit7H
  | bit7L
  | bit7IndHl
  | bit7A
  deriving DecidableEq, Repr

end Sys2Proof
end

