-- ==== Sys2Proof/Machine/Ops.lean ====
section
/-! DEFINITION. The named operations over registers and memory, and taking a fault. An operation that may raise takes the
rest of the instruction as an argument: what comes after a `raise` does not run (R11). -/

namespace Sys2Proof.Machine

/-! ### Registers -/

/-- `x[r]` (R8). -/
def State.get8 (s : State) : Reg8 → Byte
  | .b => s.b
  | .c => s.c
  | .d => s.d
  | .e => s.e
  | .h => s.h
  | .l => s.l
  | .a => s.a

/-- `x[r] <- v` (R8). -/
def State.set8 (s : State) (r : Reg8) (v : Byte) : State :=
  match r with
  | .b => { s with b := v }
  | .c => { s with c := v }
  | .d => { s with d := v }
  | .e => { s with e := v }
  | .h => { s with h := v }
  | .l => { s with l := v }
  | .a => { s with a := v }

/-- The bits of a byte that F stores: bits 3:0 are hardwired to zero and a write to them is ignored (R27). -/
def flagBits (v : Byte) : Byte := v &&& 0xF0

/-- A write of a whole byte to F (R27). -/
def State.setF (s : State) (v : Byte) : State := { s with f := flagBits v }

/-- `x[rr]`: the first-named register is the high byte (R21). -/
def State.getPair (s : State) : Pair → Word
  | .bc => wordOf s.b s.c
  | .de => wordOf s.d s.e
  | .hl => wordOf s.h s.l
  | .af => wordOf s.a s.f

/-- `x[rr] <- v`: both registers of the pair and nothing else (R8, R21, R22). -/
def State.setPair (s : State) (p : Pair) (v : Word) : State :=
  match p with
  | .bc => { s with b := hiByte v, c := loByte v }
  | .de => { s with d := hiByte v, e := loByte v }
  | .hl => { s with h := hiByte v, l := loByte v }
  | .af => { s with a := hiByte v }.setF (loByte v)

/-- `x[HL]` (R21). -/
def State.hl (s : State) : Word := s.getPair .hl

/-- `x[SP] <- v` (R31). -/
def State.setSp (s : State) (v : Word) : State := { s with sp := v }

/-- `pc <- t` (R28). -/
def State.setPc (s : State) (t : Word) : State := { s with pc := t }

/-- `pc <- pc + n` (R9, R28, R94). -/
def State.advancePc (s : State) (n : Nat) : State := { s with pc := s.pc + BitVec.ofNat 16 n }

/-- A 16-bit operand of LD rr,d16, INC rr, DEC rr (R97). -/
def State.getWide (s : State) : Wide → Word
  | .bc => s.getPair .bc
  | .de => s.getPair .de
  | .hl => s.getPair .hl
  | .sp => s.sp

/-- A write to a 16-bit operand (R97). -/
def State.setWide (s : State) (w : Wide) (v : Word) : State :=
  match w with
  | .bc => s.setPair .bc v
  | .de => s.setPair .de v
  | .hl => s.setPair .hl v
  | .sp => s.setSp v

/-! ### Taking a fault -/

/-- Fault entry (R246): the engine becomes `halted-on-error` with the diagnostic; nothing is saved, no register changes,
control goes nowhere. What the cycle wrote before stays (R248). There is no return from a fault (R249). -/
def State.raise (s : State) (r : Fault) : State := { s with engine := .haltedOnError r }

/-! ### Bytes of memory -/

/-- `MemRead(addr, 1)` (R58); `none` where it raises. A read changes no state. -/
def State.readByte (s : State) (addr : Word) : Option Byte :=
  match translate s.config addr with
  | none => none
  | some (r, off) => some (Memory.read s.mem (r.cell off))

/-- `MemWrite(addr, 1, v)` (R59); `none` where it raises: an unmapped address, or ROM. -/
def State.writeByte (s : State) (addr : Word) (v : Byte) : Option State :=
  match translate s.config addr with
  | none => none
  | some (r, off) => if r.writable then some { s with mem := Memory.write s.mem (r.cell off) v } else none

/-- `v <- MemRead(addr, 1)`, then the rest; or the fault (R58, R242). -/
def readByteThen (addr : Word) (s : State) (rest : Byte → State) : State :=
  match s.readByte addr with
  | some v => rest v
  | none => s.raise (.unmappedAddressError addr)

/-- `MemWrite(addr, 1, v)`, then the rest in the state after it; or the fault (R59, R242). -/
def writeByteThen (addr : Word) (v : Byte) (s : State) (rest : State → State) : State :=
  match s.writeByte addr v with
  | some t => rest t
  | none => s.raise (.unmappedAddressError addr)

/-! ### Words of memory: low byte first, little-endian (R60, R61, R66) -/

/-- `v <- MemRead(addr, 2)`, then the rest (R60): the low byte at `addr` is read first. -/
def readWordThen (addr : Word) (s : State) (rest : Word → State) : State :=
  readByteThen addr s fun lo => readByteThen (addr + 1) s fun hi => rest (wordOf hi lo)

/-- `MemWrite(addr, 2, v)`, then the rest (R61): the low byte is written first and stays when the second write faults
(R75). -/
def writeWordThen (addr : Word) (v : Word) (s : State) (rest : State → State) : State :=
  writeByteThen addr (loByte v) s fun t => writeByteThen (addr + 1) (hiByte v) t rest

/-! ### The stack (R31): pre-decrement, growing downward -/

/-- `x[SP] <- (x[SP] - 2) mod 65536; MemWrite(x[SP], 2, v)`, then the rest (R200, R210). -/
def pushThen (v : Word) (s : State) (rest : State → State) : State :=
  writeWordThen (s.sp - 2) v (s.setSp (s.sp - 2)) rest

/-- `v <- MemRead(x[SP], 2); x[SP] <- (x[SP] + 2) mod 65536`, then the rest (R202, R212). -/
def popThen (s : State) (rest : Word → State → State) : State :=
  readWordThen s.sp s fun v => rest v (s.setSp (s.sp + 2))

end Sys2Proof.Machine
end

