-- ==== Sys2Proof/Machine/Arith16.lean ====
section
/-! DEFINITION. The meanings of the 16-bit arithmetic (42_arith16.md): shared operations first, then one definition per row of
spec/opcode_table.json. At the start of a meaning `pc` is past the opcode bytes (R9, R100). -/

namespace Sys2Proof.Machine

/-- `x[rr] <- (x[rr] + 1) mod 65536`, no flag effects (R170, R172). -/
def incWide (w : Wide) (s : State) : State := s.setWide w (s.getWide w + 1)

/-- `x[rr] <- (x[rr] - 1) mod 65536`, no flag effects (R171, R172). -/
def decWide (w : Wide) (s : State) : State := s.setWide w (s.getWide w - 1)

/-- `INC BC`, 0x03: R170. -/
def execIncBc (s : State) : Result := .next (incWide .bc s)

/-- `DEC BC`, 0x0B: R171. -/
def execDecBc (s : State) : Result := .next (decWide .bc s)

/-- `INC DE`, 0x13: R170. -/
def execIncDe (s : State) : Result := .next (incWide .de s)

/-- `DEC DE`, 0x1B: R171. -/
def execDecDe (s : State) : Result := .next (decWide .de s)

/-- `INC HL`, 0x23: R170. -/
def execIncHl (s : State) : Result := .next (incWide .hl s)

/-- `DEC HL`, 0x2B: R171. -/
def execDecHl (s : State) : Result := .next (decWide .hl s)

/-- `INC SP`, 0x33: R170. -/
def execIncSp (s : State) : Result := .next (incWide .sp s)

/-- `DEC SP`, 0x3B: R171. -/
def execDecSp (s : State) : Result := .next (decWide .sp s)

end Sys2Proof.Machine
end

