-- ==== Sys2Proof/WellFormed.lean ====
section
/-! DEFINITION. Which instructions a machine has. The immediates of `Instr` are bounded by their types (every d8, d16,
a8, a16 and e8 of R93 is a value of its width), so the one check left is whether the row is in the dispatch table of the
machine at hand (R103, U9). -/

namespace Sys2Proof

/-- The row's basis is "decision" in spec/opcode_table.json (R103, U9): ADD, SUB, AND, OR, the shifts and the one-byte
accumulator rotates. -/
def Instr.decided : Instr → Bool
  | .rlcaAcc | .rrcaAcc | .rlaAcc | .rraAcc | .addAB | .addAC | .addAD | .addAE | .addAH | .addAL | .addAIndHl
  | .addAA | .subB | .subC | .subD | .subE | .subH | .subL | .subIndHl | .subA | .andB | .andC | .andD | .andE
  | .andH | .andL | .andIndHl | .andA | .orB | .orC | .orD | .orE | .orH | .orL | .orIndHl | .orA | .addAD8 _
  | .subD8 _ | .andD8 _ | .orD8 _ | .slaB | .slaC | .slaD | .slaE | .slaH | .slaL | .slaIndHl | .slaA | .sraB
  | .sraC | .sraD | .sraE | .sraH | .sraL | .sraIndHl | .sraA | .srlB | .srlC | .srlD | .srlE | .srlH | .srlL
  | .srlIndHl | .srlA => true
  | .ldBcD16 _ | .ldIndBcA | .incBc | .incB | .decB | .ldBD8 _ | .ldAIndBc | .decBc | .incC | .decC | .ldCD8 _
  | .ldDeD16 _ | .ldIndDeA | .incDe | .incD | .decD | .ldDD8 _ | .jrE8 _ | .ldAIndDe | .decDe | .incE | .decE
  | .ldED8 _ | .jrNzE8 _ | .ldHlD16 _ | .ldIndHlIncA | .incHl | .incH | .decH | .ldHD8 _ | .jrZE8 _
  | .ldAIndHlInc | .decHl | .incL | .decL | .ldLD8 _ | .jrNcE8 _ | .ldSpD16 _ | .ldIndHlDecA | .incSp
  | .incIndHl | .decIndHl | .ldIndHlD8 _ | .jrCE8 _ | .ldAIndHlDec | .decSp | .incA | .decA | .ldAD8 _ | .ldBB
  | .ldBC | .ldBD | .ldBE | .ldBH | .ldBL | .ldBIndHl | .ldBA | .ldCB | .ldCC | .ldCD | .ldCE | .ldCH | .ldCL
  | .ldCIndHl | .ldCA | .ldDB | .ldDC | .ldDD | .ldDE | .ldDH | .ldDL | .ldDIndHl | .ldDA | .ldEB | .ldEC
  | .ldED | .ldEE | .ldEH | .ldEL | .ldEIndHl | .ldEA | .ldHB | .ldHC | .ldHD | .ldHE | .ldHH | .ldHL
  | .ldHIndHl | .ldHA | .ldLB | .ldLC | .ldLD | .ldLE | .ldLH | .ldLL | .ldLIndHl | .ldLA | .ldIndHlB
  | .ldIndHlC | .ldIndHlD | .ldIndHlE | .ldIndHlH | .ldIndHlL | .ldIndHlA | .ldAB | .ldAC | .ldAD | .ldAE
  | .ldAH | .ldAL | .ldAIndHl | .ldAA | .xorB | .xorC | .xorD | .xorE | .xorH | .xorL | .xorIndHl | .xorA | .cpB
  | .cpC | .cpD | .cpE | .cpH | .cpL | .cpIndHl | .cpA | .retNz | .popBc | .jpNzA16 _ | .jpA16 _ | .callNzA16 _
  | .pushBc | .retZ | .ret | .jpZA16 _ | .callZA16 _ | .callA16 _ | .retNc | .popDe | .jpNcA16 _ | .callNcA16 _
  | .pushDe | .retC | .jpCA16 _ | .callCA16 _ | .ldhIndA8A _ | .popHl | .ldIndCA | .pushHl | .jpHl
  | .ldIndA16A _ | .xorD8 _ | .ldhAIndA8 _ | .popAf | .ldAIndC | .pushAf | .ldAIndA16 _ | .cpD8 _ | .rlcB
  | .rlcC | .rlcD | .rlcE | .rlcH | .rlcL | .rlcIndHl | .rlcA | .rrcB | .rrcC | .rrcD | .rrcE | .rrcH | .rrcL
  | .rrcIndHl | .rrcA | .rlB | .rlC | .rlD | .rlE | .rlH | .rlL | .rlIndHl | .rlA | .rrB | .rrC | .rrD | .rrE
  | .rrH | .rrL | .rrIndHl | .rrA | .bit0B | .bit0C | .bit0D | .bit0E | .bit0H | .bit0L | .bit0IndHl | .bit0A
  | .bit1B | .bit1C | .bit1D | .bit1E | .bit1H | .bit1L | .bit1IndHl | .bit1A | .bit2B | .bit2C | .bit2D
  | .bit2E | .bit2H | .bit2L | .bit2IndHl | .bit2A | .bit3B | .bit3C | .bit3D | .bit3E | .bit3H | .bit3L
  | .bit3IndHl | .bit3A | .bit4B | .bit4C | .bit4D | .bit4E | .bit4H | .bit4L | .bit4IndHl | .bit4A | .bit5B
  | .bit5C | .bit5D | .bit5E | .bit5H | .bit5L | .bit5IndHl | .bit5A | .bit6B | .bit6C | .bit6D | .bit6E
  | .bit6H | .bit6L | .bit6IndHl | .bit6A | .bit7B | .bit7C | .bit7D | .bit7E | .bit7H | .bit7L | .bit7IndHl
  | .bit7A => false

/-- The instruction's row is in the dispatch table of a machine with these parameters: a decided row is there only when
`DECIDED_ROWS_PRESENT` (U9). -/
def Instr.wellFormed (cfg : Config) (i : Instr) : Bool :=
  !i.decided || cfg.decidedRowsPresent

end Sys2Proof
end

