-- ==== Sys2Proof/Decode.lean ====
section
/-! DEFINITION. The encoding: operand codes and families, the decoder from the fields of an opcode byte (R95 to R99, R104 to
R109), and after it the encoder from the keys of spec/opcode_table.json. Decoding is total on any bytes. -/

namespace Sys2Proof

/-! ### Families: the constructors of one rule, by operand -/

/-- `LD r,r'` (R120, R105). -/
def Instr.ldReg : Reg8 → Reg8 → Instr
  | .b, .b => .ldBB
  | .b, .c => .ldBC
  | .b, .d => .ldBD
  | .b, .e => .ldBE
  | .b, .h => .ldBH
  | .b, .l => .ldBL
  | .b, .a => .ldBA
  | .c, .b => .ldCB
  | .c, .c => .ldCC
  | .c, .d => .ldCD
  | .c, .e => .ldCE
  | .c, .h => .ldCH
  | .c, .l => .ldCL
  | .c, .a => .ldCA
  | .d, .b => .ldDB
  | .d, .c => .ldDC
  | .d, .d => .ldDD
  | .d, .e => .ldDE
  | .d, .h => .ldDH
  | .d, .l => .ldDL
  | .d, .a => .ldDA
  | .e, .b => .ldEB
  | .e, .c => .ldEC
  | .e, .d => .ldED
  | .e, .e => .ldEE
  | .e, .h => .ldEH
  | .e, .l => .ldEL
  | .e, .a => .ldEA
  | .h, .b => .ldHB
  | .h, .c => .ldHC
  | .h, .d => .ldHD
  | .h, .e => .ldHE
  | .h, .h => .ldHH
  | .h, .l => .ldHL
  | .h, .a => .ldHA
  | .l, .b => .ldLB
  | .l, .c => .ldLC
  | .l, .d => .ldLD
  | .l, .e => .ldLE
  | .l, .h => .ldLH
  | .l, .l => .ldLL
  | .l, .a => .ldLA
  | .a, .b => .ldAB
  | .a, .c => .ldAC
  | .a, .d => .ldAD
  | .a, .e => .ldAE
  | .a, .h => .ldAH
  | .a, .l => .ldAL
  | .a, .a => .ldAA

/-- `LD r,(HL)` (R121). -/
def Instr.ldFromHl : Reg8 → Instr
  | .b => .ldBIndHl
  | .c => .ldCIndHl
  | .d => .ldDIndHl
  | .e => .ldEIndHl
  | .h => .ldHIndHl
  | .l => .ldLIndHl
  | .a => .ldAIndHl

/-- `LD (HL),r` (R127). -/
def Instr.ldToHl : Reg8 → Instr
  | .b => .ldIndHlB
  | .c => .ldIndHlC
  | .d => .ldIndHlD
  | .e => .ldIndHlE
  | .h => .ldIndHlH
  | .l => .ldIndHlL
  | .a => .ldIndHlA

/-- `LD r,d8` and `LD (HL),d8` (R122, R123). -/
def Instr.ldImm8 : Operand8 → Byte → Instr
  | .reg .b, v => .ldBD8 v
  | .reg .c, v => .ldCD8 v
  | .reg .d, v => .ldDD8 v
  | .reg .e, v => .ldED8 v
  | .reg .h, v => .ldHD8 v
  | .reg .l, v => .ldLD8 v
  | .reg .a, v => .ldAD8 v
  | .indHl, v => .ldIndHlD8 v

/-- `INC r` and `INC (HL)` (R150, R151). -/
def Instr.inc : Operand8 → Instr
  | .reg .b => .incB
  | .reg .c => .incC
  | .reg .d => .incD
  | .reg .e => .incE
  | .reg .h => .incH
  | .reg .l => .incL
  | .reg .a => .incA
  | .indHl => .incIndHl

/-- `DEC r` and `DEC (HL)` (R152, R153). -/
def Instr.dec : Operand8 → Instr
  | .reg .b => .decB
  | .reg .c => .decC
  | .reg .d => .decD
  | .reg .e => .decE
  | .reg .h => .decH
  | .reg .l => .decL
  | .reg .a => .decA
  | .indHl => .decIndHl

/-- `ADD A,r` and `ADD A,(HL)` (R157, R158). -/
def Instr.add : Operand8 → Instr
  | .reg .b => .addAB
  | .reg .c => .addAC
  | .reg .d => .addAD
  | .reg .e => .addAE
  | .reg .h => .addAH
  | .reg .l => .addAL
  | .reg .a => .addAA
  | .indHl => .addAIndHl

/-- `SUB r` and `SUB (HL)` (R160, R161). -/
def Instr.sub : Operand8 → Instr
  | .reg .b => .subB
  | .reg .c => .subC
  | .reg .d => .subD
  | .reg .e => .subE
  | .reg .h => .subH
  | .reg .l => .subL
  | .reg .a => .subA
  | .indHl => .subIndHl

/-- `AND r` and `AND (HL)` (R178, R179). -/
def Instr.and8 : Operand8 → Instr
  | .reg .b => .andB
  | .reg .c => .andC
  | .reg .d => .andD
  | .reg .e => .andE
  | .reg .h => .andH
  | .reg .l => .andL
  | .reg .a => .andA
  | .indHl => .andIndHl

/-- `XOR r` and `XOR (HL)` (R175, R176). -/
def Instr.xor8 : Operand8 → Instr
  | .reg .b => .xorB
  | .reg .c => .xorC
  | .reg .d => .xorD
  | .reg .e => .xorE
  | .reg .h => .xorH
  | .reg .l => .xorL
  | .reg .a => .xorA
  | .indHl => .xorIndHl

/-- `OR r` and `OR (HL)` (R181, R182). -/
def Instr.or8 : Operand8 → Instr
  | .reg .b => .orB
  | .reg .c => .orC
  | .reg .d => .orD
  | .reg .e => .orE
  | .reg .h => .orH
  | .reg .l => .orL
  | .reg .a => .orA
  | .indHl => .orIndHl

/-- `CP r` and `CP (HL)` (R154, R155). -/
def Instr.cp : Operand8 → Instr
  | .reg .b => .cpB
  | .reg .c => .cpC
  | .reg .d => .cpD
  | .reg .e => .cpE
  | .reg .h => .cpH
  | .reg .l => .cpL
  | .reg .a => .cpA
  | .indHl => .cpIndHl

/-- `RLC r` and `RLC (HL)` (R215, R216). -/
def Instr.rlc : Operand8 → Instr
  | .reg .b => .rlcB
  | .reg .c => .rlcC
  | .reg .d => .rlcD
  | .reg .e => .rlcE
  | .reg .h => .rlcH
  | .reg .l => .rlcL
  | .reg .a => .rlcA
  | .indHl => .rlcIndHl

/-- `RRC r` and `RRC (HL)` (R217, R218). -/
def Instr.rrc : Operand8 → Instr
  | .reg .b => .rrcB
  | .reg .c => .rrcC
  | .reg .d => .rrcD
  | .reg .e => .rrcE
  | .reg .h => .rrcH
  | .reg .l => .rrcL
  | .reg .a => .rrcA
  | .indHl => .rrcIndHl

/-- `RL r` and `RL (HL)` (R219, R220). -/
def Instr.rl : Operand8 → Instr
  | .reg .b => .rlB
  | .reg .c => .rlC
  | .reg .d => .rlD
  | .reg .e => .rlE
  | .reg .h => .rlH
  | .reg .l => .rlL
  | .reg .a => .rlA
  | .indHl => .rlIndHl

/-- `RR r` and `RR (HL)` (R221, R222). -/
def Instr.rr : Operand8 → Instr
  | .reg .b => .rrB
  | .reg .c => .rrC
  | .reg .d => .rrD
  | .reg .e => .rrE
  | .reg .h => .rrH
  | .reg .l => .rrL
  | .reg .a => .rrA
  | .indHl => .rrIndHl

/-- `SLA r` and `SLA (HL)` (R227, R228). -/
def Instr.sla : Operand8 → Instr
  | .reg .b => .slaB
  | .reg .c => .slaC
  | .reg .d => .slaD
  | .reg .e => .slaE
  | .reg .h => .slaH
  | .reg .l => .slaL
  | .reg .a => .slaA
  | .indHl => .slaIndHl

/-- `SRA r` and `SRA (HL)` (R229, R230). -/
def Instr.sra : Operand8 → Instr
  | .reg .b => .sraB
  | .reg .c => .sraC
  | .reg .d => .sraD
  | .reg .e => .sraE
  | .reg .h => .sraH
  | .reg .l => .sraL
  | .reg .a => .sraA
  | .indHl => .sraIndHl

/-- `SRL r` and `SRL (HL)` (R231, R232). -/
def Instr.srl : Operand8 → Instr
  | .reg .b => .srlB
  | .reg .c => .srlC
  | .reg .d => .srlD
  | .reg .e => .srlE
  | .reg .h => .srlH
  | .reg .l => .srlL
  | .reg .a => .srlA
  | .indHl => .srlIndHl

/-- `BIT b,r` and `BIT b,(HL)` (R185, R186). -/
def Instr.bit : Fin 8 → Operand8 → Instr
  | 0, .reg .b => .bit0B
  | 0, .reg .c => .bit0C
  | 0, .reg .d => .bit0D
  | 0, .reg .e => .bit0E
  | 0, .reg .h => .bit0H
  | 0, .reg .l => .bit0L
  | 0, .reg .a => .bit0A
  | 0, .indHl => .bit0IndHl
  | 1, .reg .b => .bit1B
  | 1, .reg .c => .bit1C
  | 1, .reg .d => .bit1D
  | 1, .reg .e => .bit1E
  | 1, .reg .h => .bit1H
  | 1, .reg .l => .bit1L
  | 1, .reg .a => .bit1A
  | 1, .indHl => .bit1IndHl
  | 2, .reg .b => .bit2B
  | 2, .reg .c => .bit2C
  | 2, .reg .d => .bit2D
  | 2, .reg .e => .bit2E
  | 2, .reg .h => .bit2H
  | 2, .reg .l => .bit2L
  | 2, .reg .a => .bit2A
  | 2, .indHl => .bit2IndHl
  | 3, .reg .b => .bit3B
  | 3, .reg .c => .bit3C
  | 3, .reg .d => .bit3D
  | 3, .reg .e => .bit3E
  | 3, .reg .h => .bit3H
  | 3, .reg .l => .bit3L
  | 3, .reg .a => .bit3A
  | 3, .indHl => .bit3IndHl
  | 4, .reg .b => .bit4B
  | 4, .reg .c => .bit4C
  | 4, .reg .d => .bit4D
  | 4, .reg .e => .bit4E
  | 4, .reg .h => .bit4H
  | 4, .reg .l => .bit4L
  | 4, .reg .a => .bit4A
  | 4, .indHl => .bit4IndHl
  | 5, .reg .b => .bit5B
  | 5, .reg .c => .bit5C
  | 5, .reg .d => .bit5D
  | 5, .reg .e => .bit5E
  | 5, .reg .h => .bit5H
  | 5, .reg .l => .bit5L
  | 5, .reg .a => .bit5A
  | 5, .indHl => .bit5IndHl
  | 6, .reg .b => .bit6B
  | 6, .reg .c => .bit6C
  | 6, .reg .d => .bit6D
  | 6, .reg .e => .bit6E
  | 6, .reg .h => .bit6H
  | 6, .reg .l => .bit6L
  | 6, .reg .a => .bit6A
  | 6, .indHl => .bit6IndHl
  | 7, .reg .b => .bit7B
  | 7, .reg .c => .bit7C
  | 7, .reg .d => .bit7D
  | 7, .reg .e => .bit7E
  | 7, .reg .h => .bit7H
  | 7, .reg .l => .bit7L
  | 7, .reg .a => .bit7A
  | 7, .indHl => .bit7IndHl

/-- `LD rr,d16` (R124). -/
def Instr.ldWide : Wide → Word → Instr
  | .bc, v => .ldBcD16 v
  | .de, v => .ldDeD16 v
  | .hl, v => .ldHlD16 v
  | .sp, v => .ldSpD16 v

/-- `INC rr` (R170). -/
def Instr.incWide : Wide → Instr
  | .bc => .incBc
  | .de => .incDe
  | .hl => .incHl
  | .sp => .incSp

/-- `DEC rr` (R171). -/
def Instr.decWide : Wide → Instr
  | .bc => .decBc
  | .de => .decDe
  | .hl => .decHl
  | .sp => .decSp

/-- `PUSH rr` and `PUSH AF` (R210, R211). -/
def Instr.push : Pair → Instr
  | .bc => .pushBc
  | .de => .pushDe
  | .hl => .pushHl
  | .af => .pushAf

/-- `POP rr` and `POP AF` (R212, R213). -/
def Instr.pop : Pair → Instr
  | .bc => .popBc
  | .de => .popDe
  | .hl => .popHl
  | .af => .popAf

/-- `JR e8` and `JR cc,e8` (R190, R191): no condition is the unconditional form. -/
def Instr.jr : Option Cond → Byte → Instr
  | none, v => .jrE8 v
  | some .nz, v => .jrNzE8 v
  | some .z, v => .jrZE8 v
  | some .nc, v => .jrNcE8 v
  | some .c, v => .jrCE8 v

/-- `JP a16` and `JP cc,a16` (R192, R193). -/
def Instr.jp : Option Cond → Word → Instr
  | none, v => .jpA16 v
  | some .nz, v => .jpNzA16 v
  | some .z, v => .jpZA16 v
  | some .nc, v => .jpNcA16 v
  | some .c, v => .jpCA16 v

/-- `CALL a16` and `CALL cc,a16` (R200, R201). -/
def Instr.call : Option Cond → Word → Instr
  | none, v => .callA16 v
  | some .nz, v => .callNzA16 v
  | some .z, v => .callZA16 v
  | some .nc, v => .callNcA16 v
  | some .c, v => .callCA16 v

/-- `RET` and `RET cc` (R202, R203). -/
def Instr.retCond : Option Cond → Instr
  | none => .ret
  | some .nz => .retNz
  | some .z => .retZ
  | some .nc => .retNc
  | some .c => .retC

/-! ### Operand codes -/

/-- The 8-bit operand code `r[i]` (R96). -/
def operandOfCode : Nat → Operand8
  | 0 => .reg .b
  | 1 => .reg .c
  | 2 => .reg .d
  | 3 => .reg .e
  | 4 => .reg .h
  | 5 => .reg .l
  | 6 => .indHl
  | _ => .reg .a

/-- `rp[p]` (R97). -/
def wideOfCode : Nat → Wide
  | 0 => .bc
  | 1 => .de
  | 2 => .hl
  | _ => .sp

/-- `rp2[p]` (R97). -/
def pairOfCode : Nat → Pair
  | 0 => .bc
  | 1 => .de
  | 2 => .hl
  | _ => .af

/-- The condition code `cc` (R98). -/
def condOfCode : Nat → Cond
  | 0 => .nz
  | 1 => .z
  | 2 => .nc
  | _ => .c

/-- `x = op[7:6]` (R95). -/
def fieldX (op : Byte) : Nat := (op.extractLsb' 6 2).toNat

/-- `y = op[5:3]` (R95). -/
def fieldY (op : Byte) : Nat := (op.extractLsb' 3 3).toNat

/-- `z = op[2:0]` (R95). -/
def fieldZ (op : Byte) : Nat := (op.extractLsb' 0 3).toNat

/-- `p = op[5:4]` (R95). -/
def fieldP (op : Byte) : Nat := (op.extractLsb' 4 2).toNat

/-- `q = op[3]` (R95). -/
def fieldQ (op : Byte) : Nat := (op.extractLsb' 3 1).toNat

/-! ### The dispatch table -/

/-- A row of the dispatch table: the instruction, or what makes it from the immediate the row consumes (R90). -/
inductive Row
  | noImm (i : Instr)
  | imm8 (make : Byte → Instr)
  | imm16 (make : Word → Instr)

/-- Whether the row's basis is "decision" (R103); the immediate plays no part. -/
def Row.decided : Row → Bool
  | .noImm i => i.decided
  | .imm8 make => (make 0).decided
  | .imm16 make => (make 0).decided

/-- The instruction a row makes from the bytes that follow its opcode, and the bytes left; `none` when they are too few.
The first immediate byte is the low half of a word (R93). -/
def Row.apply : Row → List Byte → Option (Instr × List Byte)
  | .noImm i, bs => some (i, bs)
  | .imm8 make, v :: bs => some (make v, bs)
  | .imm16 make, lo :: hi :: bs => some (make (wordOf hi lo), bs)
  | .imm8 _, [] => none
  | .imm16 _, [] => none
  | .imm16 _, [_] => none

/-- The plain rows with `x = 0` (R104). -/
def plainRow0 (op : Byte) : Option Row :=
  match fieldZ op with
  | 0 =>
    match fieldY op with
    | 3 => some (.imm8 (Instr.jr none))
    | 4 => some (.imm8 (Instr.jr (some (condOfCode 0))))
    | 5 => some (.imm8 (Instr.jr (some (condOfCode 1))))
    | 6 => some (.imm8 (Instr.jr (some (condOfCode 2))))
    | 7 => some (.imm8 (Instr.jr (some (condOfCode 3))))
    | _ => none
  | 1 => if fieldQ op = 0 then some (.imm16 (Instr.ldWide (wideOfCode (fieldP op)))) else none
  | 2 =>
    match fieldY op with
    | 0 => some (.noImm .ldIndBcA)
    | 1 => some (.noImm .ldAIndBc)
    | 2 => some (.noImm .ldIndDeA)
    | 3 => some (.noImm .ldAIndDe)
    | 4 => some (.noImm .ldIndHlIncA)
    | 5 => some (.noImm .ldAIndHlInc)
    | 6 => some (.noImm .ldIndHlDecA)
    | _ => some (.noImm .ldAIndHlDec)
  | 3 =>
    if fieldQ op = 0 then some (.noImm (Instr.incWide (wideOfCode (fieldP op))))
    else some (.noImm (Instr.decWide (wideOfCode (fieldP op))))
  | 4 => some (.noImm (Instr.inc (operandOfCode (fieldY op))))
  | 5 => some (.noImm (Instr.dec (operandOfCode (fieldY op))))
  | 6 => some (.imm8 (Instr.ldImm8 (operandOfCode (fieldY op))))
  | _ =>
    match fieldY op with
    | 0 => some (.noImm .rlcaAcc)
    | 1 => some (.noImm .rrcaAcc)
    | 2 => some (.noImm .rlaAcc)
    | 3 => some (.noImm .rraAcc)
    | _ => none

/-- The plain rows with `x = 1` (R105): `LD r[y], r[z]`, with 0x76 absent. -/
def plainRow1 (op : Byte) : Option Row :=
  match operandOfCode (fieldY op), operandOfCode (fieldZ op) with
  | .reg r, .reg r' => some (.noImm (Instr.ldReg r r'))
  | .reg r, .indHl => some (.noImm (Instr.ldFromHl r))
  | .indHl, .reg r => some (.noImm (Instr.ldToHl r))
  | .indHl, .indHl => none

/-- The plain rows with `x = 2` (R106): operation `y` on A and `r[z]`; ADC and SBC are absent. -/
def plainRow2 (op : Byte) : Option Row :=
  match fieldY op with
  | 0 => some (.noImm (Instr.add (operandOfCode (fieldZ op))))
  | 2 => some (.noImm (Instr.sub (operandOfCode (fieldZ op))))
  | 4 => some (.noImm (Instr.and8 (operandOfCode (fieldZ op))))
  | 5 => some (.noImm (Instr.xor8 (operandOfCode (fieldZ op))))
  | 6 => some (.noImm (Instr.or8 (operandOfCode (fieldZ op))))
  | 7 => some (.noImm (Instr.cp (operandOfCode (fieldZ op))))
  | _ => none

/-- The plain rows with `x = 3` (R107). -/
def plainRow3 (op : Byte) : Option Row :=
  match fieldZ op with
  | 0 =>
    match fieldY op with
    | 0 => some (.noImm (Instr.retCond (some (condOfCode 0))))
    | 1 => some (.noImm (Instr.retCond (some (condOfCode 1))))
    | 2 => some (.noImm (Instr.retCond (some (condOfCode 2))))
    | 3 => some (.noImm (Instr.retCond (some (condOfCode 3))))
    | 4 => some (.imm8 .ldhIndA8A)
    | 6 => some (.imm8 .ldhAIndA8)
    | _ => none
  | 1 =>
    match fieldY op with
    | 1 => some (.noImm (Instr.retCond none))
    | 5 => some (.noImm .jpHl)
    | _ => if fieldQ op = 0 then some (.noImm (Instr.pop (pairOfCode (fieldP op)))) else none
  | 2 =>
    match fieldY op with
    | 0 => some (.imm16 (Instr.jp (some (condOfCode 0))))
    | 1 => some (.imm16 (Instr.jp (some (condOfCode 1))))
    | 2 => some (.imm16 (Instr.jp (some (condOfCode 2))))
    | 3 => some (.imm16 (Instr.jp (some (condOfCode 3))))
    | 4 => some (.noImm .ldIndCA)
    | 5 => some (.imm16 .ldIndA16A)
    | 6 => some (.noImm .ldAIndC)
    | _ => some (.imm16 .ldAIndA16)
  | 3 =>
    match fieldY op with
    | 0 => some (.imm16 (Instr.jp none))
    | _ => none
  | 4 =>
    match fieldY op with
    | 0 => some (.imm16 (Instr.call (some (condOfCode 0))))
    | 1 => some (.imm16 (Instr.call (some (condOfCode 1))))
    | 2 => some (.imm16 (Instr.call (some (condOfCode 2))))
    | 3 => some (.imm16 (Instr.call (some (condOfCode 3))))
    | _ => none
  | 5 =>
    match fieldY op with
    | 1 => some (.imm16 (Instr.call none))
    | _ => if fieldQ op = 0 then some (.noImm (Instr.push (pairOfCode (fieldP op)))) else none
  | 6 =>
    match fieldY op with
    | 0 => some (.imm8 .addAD8)
    | 2 => some (.imm8 .subD8)
    | 4 => some (.imm8 .andD8)
    | 5 => some (.imm8 .xorD8)
    | 6 => some (.imm8 .orD8)
    | 7 => some (.imm8 .cpD8)
    | _ => none
  | _ => none

/-- The row of a plain opcode; `none` for the absent ones and for the prefix byte 0xCB (R104 to R108). -/
def plainRow (op : Byte) : Option Row :=
  match fieldX op with
  | 0 => plainRow0 op
  | 1 => plainRow1 op
  | 2 => plainRow2 op
  | _ => plainRow3 op

/-- The row of a prefixed opcode, from its second byte (R109); SWAP, RES and SET are absent (R110). -/
def prefixedRow (op : Byte) : Option Row :=
  match fieldX op with
  | 0 =>
    match fieldY op with
    | 0 => some (.noImm (Instr.rlc (operandOfCode (fieldZ op))))
    | 1 => some (.noImm (Instr.rrc (operandOfCode (fieldZ op))))
    | 2 => some (.noImm (Instr.rl (operandOfCode (fieldZ op))))
    | 3 => some (.noImm (Instr.rr (operandOfCode (fieldZ op))))
    | 4 => some (.noImm (Instr.sla (operandOfCode (fieldZ op))))
    | 5 => some (.noImm (Instr.sra (operandOfCode (fieldZ op))))
    | 7 => some (.noImm (Instr.srl (operandOfCode (fieldZ op))))
    | _ => none
  | 1 => some (.noImm (Instr.bit (op.extractLsb' 3 3).toFin (operandOfCode (fieldZ op))))
  | _ => none

/-- `PREFIX`: the reserved prefix byte (R5, R92). -/
def prefixByte : Byte := 0xCB

/-- The key of a plain opcode (R92). -/
def plainKey (op : Byte) : Word := wordOf 0 op

/-- The key of a prefixed opcode: `0xCB00 | second_byte` (R92). -/
def prefixedKey (second : Byte) : Word := wordOf prefixByte second

/-- The dispatch table on keys (R92, R102, R103): the two opcode families never collide. -/
def dispatchTable (key : Word) : Option Row :=
  if hiByte key = prefixByte then prefixedRow (loByte key)
  else if hiByte key = 0 then plainRow (loByte key)
  else none

/-- Lookup in the table of a machine with these parameters: a decided row is absent when `DECIDED_ROWS_PRESENT` is false
(U9). `none` is the lookup miss of R110. -/
def lookup (cfg : Config) (key : Word) : Option Row :=
  match dispatchTable key with
  | none => none
  | some row => if row.decided && !cfg.decidedRowsPresent then none else some row

/-! ### Decoding a list of bytes -/

/-- What the decoder says of a list of bytes: an instruction and the bytes after it; a key with no row (R110); or bytes
that end before the instruction does. -/
inductive Decoded
  | instr (i : Instr) (rest : List Byte)
  | absent (key : Word)
  | truncated
  deriving DecidableEq, Repr

/-- Decoding after the opcode bytes: the row of the key applied to the bytes that follow (R90, R93). -/
def decodeKey (cfg : Config) (key : Word) (rest : List Byte) : Decoded :=
  match lookup cfg key with
  | none => .absent key
  | some row =>
    match row.apply rest with
    | some (i, left) => .instr i left
    | none => .truncated

/-- The decoder: one opcode byte, or the prefix and a second byte, then the immediates of the row (R90, R91, R92). -/
def decode (cfg : Config) : List Byte → Decoded
  | [] => .truncated
  | op :: rest =>
    if op = prefixByte then
      match rest with
      | [] => .truncated
      | second :: left => decodeKey cfg (prefixedKey second) left
    else decodeKey cfg (plainKey op) rest

/-! ### Encoding -/

/-- The dispatch key of each row, as spec/opcode_table.json gives it (`match`): `0xNN` for a plain row, `0xCBNN` for a
prefixed row (R92). -/
def Instr.key : Instr → Word
  | .ldBcD16 _ => 0x0001
  | .ldIndBcA => 0x0002
  | .incBc => 0x0003
  | .incB => 0x0004
  | .decB => 0x0005
  | .ldBD8 _ => 0x0006
  | .rlcaAcc => 0x0007
  | .ldAIndBc => 0x000A
  | .decBc => 0x000B
  | .incC => 0x000C
  | .decC => 0x000D
  | .ldCD8 _ => 0x000E
  | .rrcaAcc => 0x000F
  | .ldDeD16 _ => 0x0011
  | .ldIndDeA => 0x0012
  | .incDe => 0x0013
  | .incD => 0x0014
  | .decD => 0x0015
  | .ldDD8 _ => 0x0016
  | .rlaAcc => 0x0017
  | .jrE8 _ => 0x0018
  | .ldAIndDe => 0x001A
  | .decDe => 0x001B
  | .incE => 0x001C
  | .decE => 0x001D
  | .ldED8 _ => 0x001E
  | .rraAcc => 0x001F
  | .jrNzE8 _ => 0x0020
  | .ldHlD16 _ => 0x0021
  | .ldIndHlIncA => 0x0022
  | .incHl => 0x0023
  | .incH => 0x0024
  | .decH => 0x0025
  | .ldHD8 _ => 0x0026
  | .jrZE8 _ => 0x0028
  | .ldAIndHlInc => 0x002A
  | .decHl => 0x002B
  | .incL => 0x002C
  | .decL => 0x002D
  | .ldLD8 _ => 0x002E
  | .jrNcE8 _ => 0x0030
  | .ldSpD16 _ => 0x0031
  | .ldIndHlDecA => 0x0032
  | .incSp => 0x0033
  | .incIndHl => 0x0034
  | .decIndHl => 0x0035
  | .ldIndHlD8 _ => 0x0036
  | .jrCE8 _ => 0x0038
  | .ldAIndHlDec => 0x003A
  | .decSp => 0x003B
  | .incA => 0x003C
  | .decA => 0x003D
  | .ldAD8 _ => 0x003E
  | .ldBB => 0x0040
  | .ldBC => 0x0041
  | .ldBD => 0x0042
  | .ldBE => 0x0043
  | .ldBH => 0x0044
  | .ldBL => 0x0045
  | .ldBIndHl => 0x0046
  | .ldBA => 0x0047
  | .ldCB => 0x0048
  | .ldCC => 0x0049
  | .ldCD => 0x004A
  | .ldCE => 0x004B
  | .ldCH => 0x004C
  | .ldCL => 0x004D
  | .ldCIndHl => 0x004E
  | .ldCA => 0x004F
  | .ldDB => 0x0050
  | .ldDC => 0x0051
  | .ldDD => 0x0052
  | .ldDE => 0x0053
  | .ldDH => 0x0054
  | .ldDL => 0x0055
  | .ldDIndHl => 0x0056
  | .ldDA => 0x0057
  | .ldEB => 0x0058
  | .ldEC => 0x0059
  | .ldED => 0x005A
  | .ldEE => 0x005B
  | .ldEH => 0x005C
  | .ldEL => 0x005D
  | .ldEIndHl => 0x005E
  | .ldEA => 0x005F
  | .ldHB => 0x0060
  | .ldHC => 0x0061
  | .ldHD => 0x0062
  | .ldHE => 0x0063
  | .ldHH => 0x0064
  | .ldHL => 0x0065
  | .ldHIndHl => 0x0066
  | .ldHA => 0x0067
  | .ldLB => 0x0068
  | .ldLC => 0x0069
  | .ldLD => 0x006A
  | .ldLE => 0x006B
  | .ldLH => 0x006C
  | .ldLL => 0x006D
  | .ldLIndHl => 0x006E
  | .ldLA => 0x006F
  | .ldIndHlB => 0x0070
  | .ldIndHlC => 0x0071
  | .ldIndHlD => 0x0072
  | .ldIndHlE => 0x0073
  | .ldIndHlH => 0x0074
  | .ldIndHlL => 0x0075
  | .ldIndHlA => 0x0077
  | .ldAB => 0x0078
  | .ldAC => 0x0079
  | .ldAD => 0x007A
  | .ldAE => 0x007B
  | .ldAH => 0x007C
  | .ldAL => 0x007D
  | .ldAIndHl => 0x007E
  | .ldAA => 0x007F
  | .addAB => 0x0080
  | .addAC => 0x0081
  | .addAD => 0x0082
  | .addAE => 0x0083
  | .addAH => 0x0084
  | .addAL => 0x0085
  | .addAIndHl => 0x0086
  | .addAA => 0x0087
  | .subB => 0x0090
  | .subC => 0x0091
  | .subD => 0x0092
  | .subE => 0x0093
  | .subH => 0x0094
  | .subL => 0x0095
  | .subIndHl => 0x0096
  | .subA => 0x0097
  | .andB => 0x00A0
  | .andC => 0x00A1
  | .andD => 0x00A2
  | .andE => 0x00A3
  | .andH => 0x00A4
  | .andL => 0x00A5
  | .andIndHl => 0x00A6
  | .andA => 0x00A7
  | .xorB => 0x00A8
  | .xorC => 0x00A9
  | .xorD => 0x00AA
  | .xorE => 0x00AB
  | .xorH => 0x00AC
  | .xorL => 0x00AD
  | .xorIndHl => 0x00AE
  | .xorA => 0x00AF
  | .orB => 0x00B0
  | .orC => 0x00B1
  | .orD => 0x00B2
  | .orE => 0x00B3
  | .orH => 0x00B4
  | .orL => 0x00B5
  | .orIndHl => 0x00B6
  | .orA => 0x00B7
  | .cpB => 0x00B8
  | .cpC => 0x00B9
  | .cpD => 0x00BA
  | .cpE => 0x00BB
  | .cpH => 0x00BC
  | .cpL => 0x00BD
  | .cpIndHl => 0x00BE
  | .cpA => 0x00BF
  | .retNz => 0x00C0
  | .popBc => 0x00C1
  | .jpNzA16 _ => 0x00C2
  | .jpA16 _ => 0x00C3
  | .callNzA16 _ => 0x00C4
  | .pushBc => 0x00C5
  | .addAD8 _ => 0x00C6
  | .retZ => 0x00C8
  | .ret => 0x00C9
  | .jpZA16 _ => 0x00CA
  | .callZA16 _ => 0x00CC
  | .callA16 _ => 0x00CD
  | .retNc => 0x00D0
  | .popDe => 0x00D1
  | .jpNcA16 _ => 0x00D2
  | .callNcA16 _ => 0x00D4
  | .pushDe => 0x00D5
  | .subD8 _ => 0x00D6
  | .retC => 0x00D8
  | .jpCA16 _ => 0x00DA
  | .callCA16 _ => 0x00DC
  | .ldhIndA8A _ => 0x00E0
  | .popHl => 0x00E1
  | .ldIndCA => 0x00E2
  | .pushHl => 0x00E5
  | .andD8 _ => 0x00E6
  | .jpHl => 0x00E9
  | .ldIndA16A _ => 0x00EA
  | .xorD8 _ => 0x00EE
  | .ldhAIndA8 _ => 0x00F0
  | .popAf => 0x00F1
  | .ldAIndC => 0x00F2
  | .pushAf => 0x00F5
  | .orD8 _ => 0x00F6
  | .ldAIndA16 _ => 0x00FA
  | .cpD8 _ => 0x00FE
  | .rlcB => 0xCB00
  | .rlcC => 0xCB01
  | .rlcD => 0xCB02
  | .rlcE => 0xCB03
  | .rlcH => 0xCB04
  | .rlcL => 0xCB05
  | .rlcIndHl => 0xCB06
  | .rlcA => 0xCB07
  | .rrcB => 0xCB08
  | .rrcC => 0xCB09
  | .rrcD => 0xCB0A
  | .rrcE => 0xCB0B
  | .rrcH => 0xCB0C
  | .rrcL => 0xCB0D
  | .rrcIndHl => 0xCB0E
  | .rrcA => 0xCB0F
  | .rlB => 0xCB10
  | .rlC => 0xCB11
  | .rlD => 0xCB12
  | .rlE => 0xCB13
  | .rlH => 0xCB14
  | .rlL => 0xCB15
  | .rlIndHl => 0xCB16
  | .rlA => 0xCB17
  | .rrB => 0xCB18
  | .rrC => 0xCB19
  | .rrD => 0xCB1A
  | .rrE => 0xCB1B
  | .rrH => 0xCB1C
  | .rrL => 0xCB1D
  | .rrIndHl => 0xCB1E
  | .rrA => 0xCB1F
  | .slaB => 0xCB20
  | .slaC => 0xCB21
  | .slaD => 0xCB22
  | .slaE => 0xCB23
  | .slaH => 0xCB24
  | .slaL => 0xCB25
  | .slaIndHl => 0xCB26
  | .slaA => 0xCB27
  | .sraB => 0xCB28
  | .sraC => 0xCB29
  | .sraD => 0xCB2A
  | .sraE => 0xCB2B
  | .sraH => 0xCB2C
  | .sraL => 0xCB2D
  | .sraIndHl => 0xCB2E
  | .sraA => 0xCB2F
  | .srlB => 0xCB38
  | .srlC => 0xCB39
  | .srlD => 0xCB3A
  | .srlE => 0xCB3B
  | .srlH => 0xCB3C
  | .srlL => 0xCB3D
  | .srlIndHl => 0xCB3E
  | .srlA => 0xCB3F
  | .bit0B => 0xCB40
  | .bit0C => 0xCB41
  | .bit0D => 0xCB42
  | .bit0E => 0xCB43
  | .bit0H => 0xCB44
  | .bit0L => 0xCB45
  | .bit0IndHl => 0xCB46
  | .bit0A => 0xCB47
  | .bit1B => 0xCB48
  | .bit1C => 0xCB49
  | .bit1D => 0xCB4A
  | .bit1E => 0xCB4B
  | .bit1H => 0xCB4C
  | .bit1L => 0xCB4D
  | .bit1IndHl => 0xCB4E
  | .bit1A => 0xCB4F
  | .bit2B => 0xCB50
  | .bit2C => 0xCB51
  | .bit2D => 0xCB52
  | .bit2E => 0xCB53
  | .bit2H => 0xCB54
  | .bit2L => 0xCB55
  | .bit2IndHl => 0xCB56
  | .bit2A => 0xCB57
  | .bit3B => 0xCB58
  | .bit3C => 0xCB59
  | .bit3D => 0xCB5A
  | .bit3E => 0xCB5B
  | .bit3H => 0xCB5C
  | .bit3L => 0xCB5D
  | .bit3IndHl => 0xCB5E
  | .bit3A => 0xCB5F
  | .bit4B => 0xCB60
  | .bit4C => 0xCB61
  | .bit4D => 0xCB62
  | .bit4E => 0xCB63
  | .bit4H => 0xCB64
  | .bit4L => 0xCB65
  | .bit4IndHl => 0xCB66
  | .bit4A => 0xCB67
  | .bit5B => 0xCB68
  | .bit5C => 0xCB69
  | .bit5D => 0xCB6A
  | .bit5E => 0xCB6B
  | .bit5H => 0xCB6C
  | .bit5L => 0xCB6D
  | .bit5IndHl => 0xCB6E
  | .bit5A => 0xCB6F
  | .bit6B => 0xCB70
  | .bit6C => 0xCB71
  | .bit6D => 0xCB72
  | .bit6E => 0xCB73
  | .bit6H => 0xCB74
  | .bit6L => 0xCB75
  | .bit6IndHl => 0xCB76
  | .bit6A => 0xCB77
  | .bit7B => 0xCB78
  | .bit7C => 0xCB79
  | .bit7D => 0xCB7A
  | .bit7E => 0xCB7B
  | .bit7H => 0xCB7C
  | .bit7L => 0xCB7D
  | .bit7IndHl => 0xCB7E
  | .bit7A => 0xCB7F

/-- The immediate bytes after the opcode bytes, the byte at the lower address first (R91, R93). -/
def Instr.operandBytes : Instr → List Byte
  | .ldBcD16 v => [loByte v, hiByte v]
  | .ldBD8 v => [v]
  | .ldCD8 v => [v]
  | .ldDeD16 v => [loByte v, hiByte v]
  | .ldDD8 v => [v]
  | .jrE8 v => [v]
  | .ldED8 v => [v]
  | .jrNzE8 v => [v]
  | .ldHlD16 v => [loByte v, hiByte v]
  | .ldHD8 v => [v]
  | .jrZE8 v => [v]
  | .ldLD8 v => [v]
  | .jrNcE8 v => [v]
  | .ldSpD16 v => [loByte v, hiByte v]
  | .ldIndHlD8 v => [v]
  | .jrCE8 v => [v]
  | .ldAD8 v => [v]
  | .jpNzA16 v => [loByte v, hiByte v]
  | .jpA16 v => [loByte v, hiByte v]
  | .callNzA16 v => [loByte v, hiByte v]
  | .addAD8 v => [v]
  | .jpZA16 v => [loByte v, hiByte v]
  | .callZA16 v => [loByte v, hiByte v]
  | .callA16 v => [loByte v, hiByte v]
  | .jpNcA16 v => [loByte v, hiByte v]
  | .callNcA16 v => [loByte v, hiByte v]
  | .subD8 v => [v]
  | .jpCA16 v => [loByte v, hiByte v]
  | .callCA16 v => [loByte v, hiByte v]
  | .ldhIndA8A v => [v]
  | .andD8 v => [v]
  | .ldIndA16A v => [loByte v, hiByte v]
  | .xorD8 v => [v]
  | .ldhAIndA8 v => [v]
  | .orD8 v => [v]
  | .ldAIndA16 v => [loByte v, hiByte v]
  | .cpD8 v => [v]
  | .ldIndBcA | .incBc | .incB | .decB | .rlcaAcc | .ldAIndBc | .decBc | .incC | .decC | .rrcaAcc | .ldIndDeA
  | .incDe | .incD | .decD | .rlaAcc | .ldAIndDe | .decDe | .incE | .decE | .rraAcc | .ldIndHlIncA | .incHl
  | .incH | .decH | .ldAIndHlInc | .decHl | .incL | .decL | .ldIndHlDecA | .incSp | .incIndHl | .decIndHl
  | .ldAIndHlDec | .decSp | .incA | .decA | .ldBB | .ldBC | .ldBD | .ldBE | .ldBH | .ldBL | .ldBIndHl | .ldBA
  | .ldCB | .ldCC | .ldCD | .ldCE | .ldCH | .ldCL | .ldCIndHl | .ldCA | .ldDB | .ldDC | .ldDD | .ldDE | .ldDH
  | .ldDL | .ldDIndHl | .ldDA | .ldEB | .ldEC | .ldED | .ldEE | .ldEH | .ldEL | .ldEIndHl | .ldEA | .ldHB
  | .ldHC | .ldHD | .ldHE | .ldHH | .ldHL | .ldHIndHl | .ldHA | .ldLB | .ldLC | .ldLD | .ldLE | .ldLH | .ldLL
  | .ldLIndHl | .ldLA | .ldIndHlB | .ldIndHlC | .ldIndHlD | .ldIndHlE | .ldIndHlH | .ldIndHlL | .ldIndHlA
  | .ldAB | .ldAC | .ldAD | .ldAE | .ldAH | .ldAL | .ldAIndHl | .ldAA | .addAB | .addAC | .addAD | .addAE
  | .addAH | .addAL | .addAIndHl | .addAA | .subB | .subC | .subD | .subE | .subH | .subL | .subIndHl | .subA
  | .andB | .andC | .andD | .andE | .andH | .andL | .andIndHl | .andA | .xorB | .xorC | .xorD | .xorE | .xorH
  | .xorL | .xorIndHl | .xorA | .orB | .orC | .orD | .orE | .orH | .orL | .orIndHl | .orA | .cpB | .cpC | .cpD
  | .cpE | .cpH | .cpL | .cpIndHl | .cpA | .retNz | .popBc | .pushBc | .retZ | .ret | .retNc | .popDe | .pushDe
  | .retC | .popHl | .ldIndCA | .pushHl | .jpHl | .popAf | .ldAIndC | .pushAf | .rlcB | .rlcC | .rlcD | .rlcE
  | .rlcH | .rlcL | .rlcIndHl | .rlcA | .rrcB | .rrcC | .rrcD | .rrcE | .rrcH | .rrcL | .rrcIndHl | .rrcA | .rlB
  | .rlC | .rlD | .rlE | .rlH | .rlL | .rlIndHl | .rlA | .rrB | .rrC | .rrD | .rrE | .rrH | .rrL | .rrIndHl
  | .rrA | .slaB | .slaC | .slaD | .slaE | .slaH | .slaL | .slaIndHl | .slaA | .sraB | .sraC | .sraD | .sraE
  | .sraH | .sraL | .sraIndHl | .sraA | .srlB | .srlC | .srlD | .srlE | .srlH | .srlL | .srlIndHl | .srlA
  | .bit0B | .bit0C | .bit0D | .bit0E | .bit0H | .bit0L | .bit0IndHl | .bit0A | .bit1B | .bit1C | .bit1D
  | .bit1E | .bit1H | .bit1L | .bit1IndHl | .bit1A | .bit2B | .bit2C | .bit2D | .bit2E | .bit2H | .bit2L
  | .bit2IndHl | .bit2A | .bit3B | .bit3C | .bit3D | .bit3E | .bit3H | .bit3L | .bit3IndHl | .bit3A | .bit4B
  | .bit4C | .bit4D | .bit4E | .bit4H | .bit4L | .bit4IndHl | .bit4A | .bit5B | .bit5C | .bit5D | .bit5E
  | .bit5H | .bit5L | .bit5IndHl | .bit5A | .bit6B | .bit6C | .bit6D | .bit6E | .bit6H | .bit6L | .bit6IndHl
  | .bit6A | .bit7B | .bit7C | .bit7D | .bit7E | .bit7H | .bit7L | .bit7IndHl | .bit7A => []

/-- The opcode bytes of an instruction: the key's low byte, after the prefix byte in a prefixed row (R91, R92). -/
def Instr.opcodeBytes (i : Instr) : List Byte :=
  if hiByte i.key = prefixByte then [prefixByte, loByte i.key] else [loByte i.key]

/-- The bytes of an instruction, lowest address first (R91). -/
def encode (i : Instr) : List Byte := i.opcodeBytes ++ i.operandBytes

/-- How many opcode bytes the sequencer advances `pc` past (R94, R100). -/
def Instr.opcodeLength (i : Instr) : Nat := i.opcodeBytes.length

/-- How many immediate bytes the instruction consumes and advances `pc` past (R9, R94). -/
def Instr.operandLength (i : Instr) : Nat := i.operandBytes.length

/-- The length of an instruction in bytes (R90). -/
def Instr.length (i : Instr) : Nat := i.opcodeLength + i.operandLength

/-! ### Words numbered as spec/opcode_table.json numbers them -/

/-- The bytes, lowest address first, of an instruction given as the bits of its table row. A prefixed row is numbered by
its key (`match` is `0xCBNN` with mask `0xFFFF`), so a 16-bit word whose bits 15..8 are 0xCB has the prefix as its FIRST
byte; any other word has its first byte in bits 7..0. Bits from `nbits` up are zero; three bytes is the longest
instruction (R90). -/
def tableBytes (nbits w : Nat) : List Byte :=
  let v := w % 2 ^ nbits
  if nbits = 16 ∧ v / 256 = 0xCB then [prefixByte, BitVec.ofNat 8 v, 0]
  else [BitVec.ofNat 8 v, BitVec.ofNat 8 (v / 256), BitVec.ofNat 8 (v / 65536)]

/-- The instruction the decoder reads from a word of spec/opcode_table.json, on the machine of `State.reset`. -/
def decodeTableWord (nbits w : Nat) : Option Instr :=
  match decode Machine.launchConfig (tableBytes nbits w) with
  | .instr i _ => some i
  | .absent _ => none
  | .truncated => none

end Sys2Proof
end

