-- ==== Sys2Proof/Machine/Flags.lean ====
section
/-! DEFINITION. The flags: their places in F (R24), the mask-and-boolean writes (R25, R8), and every flag computation of
the instruction rules (R26). -/

namespace Sys2Proof.Machine

/-- The four flags (R24). -/
inductive Flag
  | z | n | h | c
  deriving DecidableEq, Repr

/-- The masks `MZ`, `MN`, `MH`, `MC` (R8, R24). -/
def Flag.mask : Flag → Byte
  | .z => 0x80
  | .n => 0x40
  | .h => 0x20
  | .c => 0x10

/-- `is_flag_set` (R25). -/
def State.flag (s : State) (fl : Flag) : Bool := (s.f &&& fl.mask) != 0

/-- What `SetFlags(mask, value)` makes of F (R8, R25). -/
def setFlagBits (mask : Byte) (value : Bool) (f : Byte) : Byte :=
  if value then f ||| mask else f &&& ~~~mask

/-- `SetFlags(mask, value)` (R8, R25): the other bits of F keep their value. -/
def State.setFlags (s : State) (mask : Byte) (value : Bool) : State := { s with f := setFlagBits mask value s.f }

/-- `flags: Z=z N=n H=h C=-`: three calls of SetFlags, Carry not written (R8). -/
def State.writeZNH (s : State) (z n h : Bool) : State :=
  ((s.setFlags Flag.z.mask z).setFlags Flag.n.mask n).setFlags Flag.h.mask h

/-- `flags: Z=z N=n H=h C=c`: four calls of SetFlags (R8). -/
def State.writeZNHC (s : State) (z n h c : Bool) : State := (s.writeZNH z n h).setFlags Flag.c.mask c

/-- `cin`: the Carry flag before the instruction (48_rotates.md, head note). -/
def State.cin (s : State) : Bool := s.flag .c

/-- Zero: the 8-bit result is 0. -/
def zeroOf (res : Byte) : Bool := res == 0

/-- Half-Carry of INC: the low nibble of the result is 0 (R150). -/
def halfOfInc (res : Byte) : Bool := (res &&& 0x0F) == 0

/-- Half-Carry of DEC: the low nibble of the operand was 0 before (R152). -/
def halfOfDec (v : Byte) : Bool := (v &&& 0x0F) == 0

/-- Half-Carry of ADD: the sum of the low nibbles is above 0xF (R157). -/
def halfOfAdd (a v : Byte) : Bool := decide ((a &&& 0x0F).toNat + (v &&& 0x0F).toNat > 0xF)

/-- Carry of ADD: the sum is above 0xFF (R157). -/
def carryOfAdd (a v : Byte) : Bool := decide (a.toNat + v.toNat > 0xFF)

/-- Half-Carry of CP and SUB: the operand's low nibble is above A's (R154). -/
def halfOfSub (a v : Byte) : Bool := decide ((v &&& 0x0F).toNat > (a &&& 0x0F).toNat)

/-- Carry of CP and SUB: the operand is above A (R154). -/
def carryOfSub (a v : Byte) : Bool := decide (v.toNat > a.toNat)

end Sys2Proof.Machine
end

