-- ==== Sys2Proof/Machine/Operands.lean ====
section
/-! DEFINITION. The operand forms: `R8read`, `R8write` and `cond` of rule R10, and the shapes of instruction they make. -/

namespace Sys2Proof.Machine

/-- `v <- R8read(i)`, then the rest: a register, or the byte at `x[HL]` (R10). -/
def readOperandThen (o : Operand8) (s : State) (rest : Byte → State) : State :=
  match o with
  | .reg r => rest (s.get8 r)
  | .indHl => readByteThen s.hl s rest

/-- `R8write(i, v)`, then the rest in the state after it (R10). -/
def writeOperandThen (o : Operand8) (v : Byte) (s : State) (rest : State → State) : State :=
  match o with
  | .reg r => rest (s.set8 r v)
  | .indHl => writeByteThen s.hl v s rest

/-- Read an operand, write back what `res` makes of it, then write the flags: the shape of INC, DEC and the prefixed rotates
and shifts (R64, R151, R233). The flags change only after the store succeeded. -/
def modifyOperand (res : Byte → Byte) (flags : Byte → State → State) (o : Operand8) (s : State) : State :=
  readOperandThen o s fun v => writeOperandThen o (res v) s (flags v)

/-- `cond(cc)` (R10, R98). -/
def State.cond (s : State) : Cond → Bool
  | .nz => !s.flag .z
  | .z => s.flag .z
  | .nc => !s.flag .c
  | .c => s.flag .c

/-- `0xFF00 + n` for the I/O-mapped forms (R93, R135 to R138); at most 0xFFFF (R62). -/
def ioAddress (n : Byte) : Word := 0xFF00 + BitVec.setWidth 16 n

/-- `sext(e8)` as an integer in `[-128, 127]` (R7, R93). -/
def signedOffset (e8 : Byte) : Int := e8.toInt

end Sys2Proof.Machine
end

