-- ==== Sys2Proof/Machine/Arith8.lean ====
section
/-! DEFINITION. The meanings of the 8-bit arithmetic (41_arith8.md): shared operations first, then one definition per row of
spec/opcode_table.json. At the start of a meaning `pc` is past the opcode bytes (R9, R100). -/

namespace Sys2Proof.Machine

/-- INC of an operand (R150, R151): Carry is not written. -/
def incOperand (o : Operand8) (s : State) : State :=
  modifyOperand (fun v => v + 1) (fun v t => t.writeZNH (zeroOf (v + 1)) false (halfOfInc (v + 1))) o s

/-- DEC of an operand (R152, R153): Carry is not written. -/
def decOperand (o : Operand8) (s : State) : State :=
  modifyOperand (fun v => v - 1) (fun v t => t.writeZNH (zeroOf (v - 1)) true (halfOfDec v)) o s

/-- `A - v` for its flags alone: A is not written (R154). -/
def compareA (v : Byte) (s : State) : State :=
  s.writeZNHC (decide (v = s.a)) true (halfOfSub s.a v) (carryOfSub s.a v)

/-- `x[A] <- (a + v) mod 256` and its flags (R157). -/
def addA (v : Byte) (s : State) : State :=
  { s with a := s.a + v }.writeZNHC (zeroOf (s.a + v)) false (halfOfAdd s.a v) (carryOfAdd s.a v)

/-- `x[A] <- (a - v) mod 256` and its flags (R160). -/
def subA (v : Byte) (s : State) : State :=
  { s with a := s.a - v }.writeZNHC (zeroOf (s.a - v)) true (halfOfSub s.a v) (carryOfSub s.a v)

/-- `INC B`, 0x04: R150. -/
def execIncB (s : State) : Result := .next (incOperand (.reg .b) s)

/-- `DEC B`, 0x05: R152. -/
def execDecB (s : State) : Result := .next (decOperand (.reg .b) s)

/-- `INC C`, 0x0C: R150. -/
def execIncC (s : State) : Result := .next (incOperand (.reg .c) s)

/-- `DEC C`, 0x0D: R152. -/
def execDecC (s : State) : Result := .next (decOperand (.reg .c) s)

/-- `INC D`, 0x14: R150. -/
def execIncD (s : State) : Result := .next (incOperand (.reg .d) s)

/-- `DEC D`, 0x15: R152. -/
def execDecD (s : State) : Result := .next (decOperand (.reg .d) s)

/-- `INC E`, 0x1C: R150. -/
def execIncE (s : State) : Result := .next (incOperand (.reg .e) s)

/-- `DEC E`, 0x1D: R152. -/
def execDecE (s : State) : Result := .next (decOperand (.reg .e) s)

/-- `INC H`, 0x24: R150. -/
def execIncH (s : State) : Result := .next (incOperand (.reg .h) s)

/-- `DEC H`, 0x25: R152. -/
def execDecH (s : State) : Result := .next (decOperand (.reg .h) s)

/-- `INC L`, 0x2C: R150. -/
def execIncL (s : State) : Result := .next (incOperand (.reg .l) s)

/-- `DEC L`, 0x2D: R152. -/
def execDecL (s : State) : Result := .next (decOperand (.reg .l) s)

/-- `INC (HL)`, 0x34: R151. -/
def execIncIndHl (s : State) : Result := .next (incOperand .indHl s)

/-- `DEC (HL)`, 0x35: R153. -/
def execDecIndHl (s : State) : Result := .next (decOperand .indHl s)

/-- `INC A`, 0x3C: R150. -/
def execIncA (s : State) : Result := .next (incOperand (.reg .a) s)

/-- `DEC A`, 0x3D: R152. -/
def execDecA (s : State) : Result := .next (decOperand (.reg .a) s)

/-- `ADD A,B`, 0x80: R157. -/
def execAddAB (s : State) : Result := .next (readOperandThen (.reg .b) s fun v => addA v s)

/-- `ADD A,C`, 0x81: R157. -/
def execAddAC (s : State) : Result := .next (readOperandThen (.reg .c) s fun v => addA v s)

/-- `ADD A,D`, 0x82: R157. -/
def execAddAD (s : State) : Result := .next (readOperandThen (.reg .d) s fun v => addA v s)

/-- `ADD A,E`, 0x83: R157. -/
def execAddAE (s : State) : Result := .next (readOperandThen (.reg .e) s fun v => addA v s)

/-- `ADD A,H`, 0x84: R157. -/
def execAddAH (s : State) : Result := .next (readOperandThen (.reg .h) s fun v => addA v s)

/-- `ADD A,L`, 0x85: R157. -/
def execAddAL (s : State) : Result := .next (readOperandThen (.reg .l) s fun v => addA v s)

/-- `ADD A,(HL)`, 0x86: R158. -/
def execAddAIndHl (s : State) : Result := .next (readOperandThen .indHl s fun v => addA v s)

/-- `ADD A,A`, 0x87: R157. -/
def execAddAA (s : State) : Result := .next (readOperandThen (.reg .a) s fun v => addA v s)

/-- `SUB B`, 0x90: R160. -/
def execSubB (s : State) : Result := .next (readOperandThen (.reg .b) s fun v => subA v s)

/-- `SUB C`, 0x91: R160. -/
def execSubC (s : State) : Result := .next (readOperandThen (.reg .c) s fun v => subA v s)

/-- `SUB D`, 0x92: R160. -/
def execSubD (s : State) : Result := .next (readOperandThen (.reg .d) s fun v => subA v s)

/-- `SUB E`, 0x93: R160. -/
def execSubE (s : State) : Result := .next (readOperandThen (.reg .e) s fun v => subA v s)

/-- `SUB H`, 0x94: R160. -/
def execSubH (s : State) : Result := .next (readOperandThen (.reg .h) s fun v => subA v s)

/-- `SUB L`, 0x95: R160. -/
def execSubL (s : State) : Result := .next (readOperandThen (.reg .l) s fun v => subA v s)

/-- `SUB (HL)`, 0x96: R161. -/
def execSubIndHl (s : State) : Result := .next (readOperandThen .indHl s fun v => subA v s)

/-- `SUB A`, 0x97: R160. -/
def execSubA (s : State) : Result := .next (readOperandThen (.reg .a) s fun v => subA v s)

/-- `CP B`, 0xB8: R154. -/
def execCpB (s : State) : Result := .next (readOperandThen (.reg .b) s fun v => compareA v s)

/-- `CP C`, 0xB9: R154. -/
def execCpC (s : State) : Result := .next (readOperandThen (.reg .c) s fun v => compareA v s)

/-- `CP D`, 0xBA: R154. -/
def execCpD (s : State) : Result := .next (readOperandThen (.reg .d) s fun v => compareA v s)

/-- `CP E`, 0xBB: R154. -/
def execCpE (s : State) : Result := .next (readOperandThen (.reg .e) s fun v => compareA v s)

/-- `CP H`, 0xBC: R154. -/
def execCpH (s : State) : Result := .next (readOperandThen (.reg .h) s fun v => compareA v s)

/-- `CP L`, 0xBD: R154. -/
def execCpL (s : State) : Result := .next (readOperandThen (.reg .l) s fun v => compareA v s)

/-- `CP (HL)`, 0xBE: R155. -/
def execCpIndHl (s : State) : Result := .next (readOperandThen .indHl s fun v => compareA v s)

/-- `CP A`, 0xBF: R154. -/
def execCpA (s : State) : Result := .next (readOperandThen (.reg .a) s fun v => compareA v s)

/-- `ADD A,d8`, 0xC6: R159. -/
def execAddAD8 (d8 : Byte) (s : State) : Result := .next (addA d8 (s.advancePc 1))

/-- `SUB d8`, 0xD6: R162. -/
def execSubD8 (d8 : Byte) (s : State) : Result := .next (subA d8 (s.advancePc 1))

/-- `CP d8`, 0xFE: R156. -/
def execCpD8 (d8 : Byte) (s : State) : Result := .next (compareA d8 (s.advancePc 1))

end Sys2Proof.Machine
end

