-- ==== Sys2Proof/Machine/Bit.lean ====
section
/-! DEFINITION. The meanings of the bit test (44_bit.md): shared operations first, then one definition per row of
spec/opcode_table.json. At the start of a meaning `pc` is past the opcode bytes (R9, R100). -/

namespace Sys2Proof.Machine

/-- Test bit `b` of an operand: Z is set exactly when the bit is 0, N = 0, H = 1, Carry is not written, and nothing is stored
(R185, R186). -/
def testBit (b : Nat) (o : Operand8) (s : State) : State :=
  readOperandThen o s fun v => s.writeZNH (!v.getLsbD b) false true

/-- `BIT 0,B`, 0xCB 0x40: R185. -/
def execBit0B (s : State) : Result := .next (testBit 0 (.reg .b) s)

/-- `BIT 0,C`, 0xCB 0x41: R185. -/
def execBit0C (s : State) : Result := .next (testBit 0 (.reg .c) s)

/-- `BIT 0,D`, 0xCB 0x42: R185. -/
def execBit0D (s : State) : Result := .next (testBit 0 (.reg .d) s)

/-- `BIT 0,E`, 0xCB 0x43: R185. -/
def execBit0E (s : State) : Result := .next (testBit 0 (.reg .e) s)

/-- `BIT 0,H`, 0xCB 0x44: R185. -/
def execBit0H (s : State) : Result := .next (testBit 0 (.reg .h) s)

/-- `BIT 0,L`, 0xCB 0x45: R185. -/
def execBit0L (s : State) : Result := .next (testBit 0 (.reg .l) s)

/-- `BIT 0,(HL)`, 0xCB 0x46: R186. -/
def execBit0IndHl (s : State) : Result := .next (testBit 0 .indHl s)

/-- `BIT 0,A`, 0xCB 0x47: R185. -/
def execBit0A (s : State) : Result := .next (testBit 0 (.reg .a) s)

/-- `BIT 1,B`, 0xCB 0x48: R185. -/
def execBit1B (s : State) : Result := .next (testBit 1 (.reg .b) s)

/-- `BIT 1,C`, 0xCB 0x49: R185. -/
def execBit1C (s : State) : Result := .next (testBit 1 (.reg .c) s)

/-- `BIT 1,D`, 0xCB 0x4A: R185. -/
def execBit1D (s : State) : Result := .next (testBit 1 (.reg .d) s)

/-- `BIT 1,E`, 0xCB 0x4B: R185. -/
def execBit1E (s : State) : Result := .next (testBit 1 (.reg .e) s)

/-- `BIT 1,H`, 0xCB 0x4C: R185. -/
def execBit1H (s : State) : Result := .next (testBit 1 (.reg .h) s)

/-- `BIT 1,L`, 0xCB 0x4D: R185. -/
def execBit1L (s : State) : Result := .next (testBit 1 (.reg .l) s)

/-- `BIT 1,(HL)`, 0xCB 0x4E: R186. -/
def execBit1IndHl (s : State) : Result := .next (testBit 1 .indHl s)

/-- `BIT 1,A`, 0xCB 0x4F: R185. -/
def execBit1A (s : State) : Result := .next (testBit 1 (.reg .a) s)

/-- `BIT 2,B`, 0xCB 0x50: R185. -/
def execBit2B (s : State) : Result := .next (testBit 2 (.reg .b) s)

/-- `BIT 2,C`, 0xCB 0x51: R185. -/
def execBit2C (s : State) : Result := .next (testBit 2 (.reg .c) s)

/-- `BIT 2,D`, 0xCB 0x52: R185. -/
def execBit2D (s : State) : Result := .next (testBit 2 (.reg .d) s)

/-- `BIT 2,E`, 0xCB 0x53: R185. -/
def execBit2E (s : State) : Result := .next (testBit 2 (.reg .e) s)

/-- `BIT 2,H`, 0xCB 0x54: R185. -/
def execBit2H (s : State) : Result := .next (testBit 2 (.reg .h) s)

/-- `BIT 2,L`, 0xCB 0x55: R185. -/
def execBit2L (s : State) : Result := .next (testBit 2 (.reg .l) s)

/-- `BIT 2,(HL)`, 0xCB 0x56: R186. -/
def execBit2IndHl (s : State) : Result := .next (testBit 2 .indHl s)

/-- `BIT 2,A`, 0xCB 0x57: R185. -/
def execBit2A (s : State) : Result := .next (testBit 2 (.reg .a) s)

/-- `BIT 3,B`, 0xCB 0x58: R185. -/
def execBit3B (s : State) : Result := .next (testBit 3 (.reg .b) s)

/-- `BIT 3,C`, 0xCB 0x59: R185. -/
def execBit3C (s : State) : Result := .next (testBit 3 (.reg .c) s)

/-- `BIT 3,D`, 0xCB 0x5A: R185. -/
def execBit3D (s : State) : Result := .next (testBit 3 (.reg .d) s)

/-- `BIT 3,E`, 0xCB 0x5B: R185. -/
def execBit3E (s : State) : Result := .next (testBit 3 (.reg .e) s)

/-- `BIT 3,H`, 0xCB 0x5C: R185. -/
def execBit3H (s : State) : Result := .next (testBit 3 (.reg .h) s)

/-- `BIT 3,L`, 0xCB 0x5D: R185. -/
def execBit3L (s : State) : Result := .next (testBit 3 (.reg .l) s)

/-- `BIT 3,(HL)`, 0xCB 0x5E: R186. -/
def execBit3IndHl (s : State) : Result := .next (testBit 3 .indHl s)

/-- `BIT 3,A`, 0xCB 0x5F: R185. -/
def execBit3A (s : State) : Result := .next (testBit 3 (.reg .a) s)

/-- `BIT 4,B`, 0xCB 0x60: R185. -/
def execBit4B (s : State) : Result := .next (testBit 4 (.reg .b) s)

/-- `BIT 4,C`, 0xCB 0x61: R185. -/
def execBit4C (s : State) : Result := .next (testBit 4 (.reg .c) s)

/-- `BIT 4,D`, 0xCB 0x62: R185. -/
def execBit4D (s : State) : Result := .next (testBit 4 (.reg .d) s)

/-- `BIT 4,E`, 0xCB 0x63: R185. -/
def execBit4E (s : State) : Result := .next (testBit 4 (.reg .e) s)

/-- `BIT 4,H`, 0xCB 0x64: R185. -/
def execBit4H (s : State) : Result := .next (testBit 4 (.reg .h) s)

/-- `BIT 4,L`, 0xCB 0x65: R185. -/
def execBit4L (s : State) : Result := .next (testBit 4 (.reg .l) s)

/-- `BIT 4,(HL)`, 0xCB 0x66: R186. -/
def execBit4IndHl (s : State) : Result := .next (testBit 4 .indHl s)

/-- `BIT 4,A`, 0xCB 0x67: R185. -/
def execBit4A (s : State) : Result := .next (testBit 4 (.reg .a) s)

/-- `BIT 5,B`, 0xCB 0x68: R185. -/
def execBit5B (s : State) : Result := .next (testBit 5 (.reg .b) s)

/-- `BIT 5,C`, 0xCB 0x69: R185. -/
def execBit5C (s : State) : Result := .next (testBit 5 (.reg .c) s)

/-- `BIT 5,D`, 0xCB 0x6A: R185. -/
def execBit5D (s : State) : Result := .next (testBit 5 (.reg .d) s)

/-- `BIT 5,E`, 0xCB 0x6B: R185. -/
def execBit5E (s : State) : Result := .next (testBit 5 (.reg .e) s)

/-- `BIT 5,H`, 0xCB 0x6C: R185. -/
def execBit5H (s : State) : Result := .next (testBit 5 (.reg .h) s)

/-- `BIT 5,L`, 0xCB 0x6D: R185. -/
def execBit5L (s : State) : Result := .next (testBit 5 (.reg .l) s)

/-- `BIT 5,(HL)`, 0xCB 0x6E: R186. -/
def execBit5IndHl (s : State) : Result := .next (testBit 5 .indHl s)

/-- `BIT 5,A`, 0xCB 0x6F: R185. -/
def execBit5A (s : State) : Result := .next (testBit 5 (.reg .a) s)

/-- `BIT 6,B`, 0xCB 0x70: R185. -/
def execBit6B (s : State) : Result := .next (testBit 6 (.reg .b) s)

/-- `BIT 6,C`, 0xCB 0x71: R185. -/
def execBit6C (s : State) : Result := .next (testBit 6 (.reg .c) s)

/-- `BIT 6,D`, 0xCB 0x72: R185. -/
def execBit6D (s : State) : Result := .next (testBit 6 (.reg .d) s)

/-- `BIT 6,E`, 0xCB 0x73: R185. -/
def execBit6E (s : State) : Result := .next (testBit 6 (.reg .e) s)

/-- `BIT 6,H`, 0xCB 0x74: R185. -/
def execBit6H (s : State) : Result := .next (testBit 6 (.reg .h) s)

/-- `BIT 6,L`, 0xCB 0x75: R185. -/
def execBit6L (s : State) : Result := .next (testBit 6 (.reg .l) s)

/-- `BIT 6,(HL)`, 0xCB 0x76: R186. -/
def execBit6IndHl (s : State) : Result := .next (testBit 6 .indHl s)

/-- `BIT 6,A`, 0xCB 0x77: R185. -/
def execBit6A (s : State) : Result := .next (testBit 6 (.reg .a) s)

/-- `BIT 7,B`, 0xCB 0x78: R185. -/
def execBit7B (s : State) : Result := .next (testBit 7 (.reg .b) s)

/-- `BIT 7,C`, 0xCB 0x79: R185. -/
def execBit7C (s : State) : Result := .next (testBit 7 (.reg .c) s)

/-- `BIT 7,D`, 0xCB 0x7A: R185. -/
def execBit7D (s : State) : Result := .next (testBit 7 (.reg .d) s)

/-- `BIT 7,E`, 0xCB 0x7B: R185. -/
def execBit7E (s : State) : Result := .next (testBit 7 (.reg .e) s)

/-- `BIT 7,H`, 0xCB 0x7C: R185. -/
def execBit7H (s : State) : Result := .next (testBit 7 (.reg .h) s)

/-- `BIT 7,L`, 0xCB 0x7D: R185. -/
def execBit7L (s : State) : Result := .next (testBit 7 (.reg .l) s)

/-- `BIT 7,(HL)`, 0xCB 0x7E: R186. -/
def execBit7IndHl (s : State) : Result := .next (testBit 7 .indHl s)

/-- `BIT 7,A`, 0xCB 0x7F: R185. -/
def execBit7A (s : State) : Result := .next (testBit 7 (.reg .a) s)

end Sys2Proof.Machine
end

