-- ==== Sys2Proof/Machine/Calls.lean ====
section
/-! DEFINITION. The meanings of the calls and returns (46_calls.md): shared operations first, then one definition per row of
spec/opcode_table.json. At the start of a meaning `pc` is past the opcode bytes (R9, R100). -/

namespace Sys2Proof.Machine

/-- `CALL`: the immediate first (`pc` is then the return address), then the push, then the jump (R200); nothing but the
immediate when not taken (R201). -/
def callAbsolute (taken : Bool) (a16 : Word) (s : State) : State :=
  if taken then pushThen (s.advancePc 2).pc (s.advancePc 2) fun t => t.setPc a16 else s.advancePc 2

/-- `RET`: pop a word into `pc` (R202); nothing at all when not taken (R203). -/
def returnPop (taken : Bool) (s : State) : State :=
  if taken then popThen s fun v t => t.setPc v else s

/-- `RET NZ`, 0xC0: R203. -/
def execRetNz (s : State) : Result := .next (returnPop (s.cond .nz) s)

/-- `CALL NZ,a16`, 0xC4: R201. -/
def execCallNzA16 (a16 : Word) (s : State) : Result := .next (callAbsolute (s.cond .nz) a16 s)

/-- `RET Z`, 0xC8: R203. -/
def execRetZ (s : State) : Result := .next (returnPop (s.cond .z) s)

/-- `RET`, 0xC9: R202. -/
def execRet (s : State) : Result := .next (returnPop true s)

/-- `CALL Z,a16`, 0xCC: R201. -/
def execCallZA16 (a16 : Word) (s : State) : Result := .next (callAbsolute (s.cond .z) a16 s)

/-- `CALL a16`, 0xCD: R200. -/
def execCallA16 (a16 : Word) (s : State) : Result := .next (callAbsolute true a16 s)

/-- `RET NC`, 0xD0: R203. -/
def execRetNc (s : State) : Result := .next (returnPop (s.cond .nc) s)

/-- `CALL NC,a16`, 0xD4: R201. -/
def execCallNcA16 (a16 : Word) (s : State) : Result := .next (callAbsolute (s.cond .nc) a16 s)

/-- `RET C`, 0xD8: R203. -/
def execRetC (s : State) : Result := .next (returnPop (s.cond .c) s)

/-- `CALL C,a16`, 0xDC: R201. -/
def execCallCA16 (a16 : Word) (s : State) : Result := .next (callAbsolute (s.cond .c) a16 s)

end Sys2Proof.Machine
end

