-- ==== Sys2Proof/Machine/Jumps.lean ====
section
/-! DEFINITION. The meanings of the jumps (45_jumps.md): shared operations first, then one definition per row of
spec/opcode_table.json. At the start of a meaning `pc` is past the opcode bytes (R9, R100). -/

namespace Sys2Proof.Machine

/-- The target of a relative jump from `pc`, before narrowing (R190). -/
def jumpTarget (pc : Word) (e8 : Byte) : Int := (pc.toNat : Int) + signedOffset e8

/-- `t <- pc + sext(e)`, checked against `[0, 0xFFFF]` before it is narrowed (R190). -/
def relativeJump (e8 : Byte) (s : State) : State :=
  if jumpTarget s.pc e8 < 0 ∨ jumpTarget s.pc e8 > 0xFFFF then s.raise (.invalidJumpError s.pc (signedOffset e8))
  else s.setPc (BitVec.ofInt 16 (jumpTarget s.pc e8))

/-- `JR`: `pc` moves past the operand whether the jump is taken or not; the range is checked only when it is (R190, R191). -/
def jumpRelative (taken : Bool) (e8 : Byte) (s : State) : State :=
  if taken then relativeJump e8 (s.advancePc 1) else s.advancePc 1

/-- `JP`: `pc` moves past the two operand bytes when the jump is not taken (R192, R193). -/
def jumpAbsolute (taken : Bool) (a16 : Word) (s : State) : State :=
  if taken then (s.advancePc 2).setPc a16 else s.advancePc 2

/-- `JR e8`, 0x18: R190. -/
def execJrE8 (e8 : Byte) (s : State) : Result := .next (jumpRelative true e8 s)

/-- `JR NZ,e8`, 0x20: R191. -/
def execJrNzE8 (e8 : Byte) (s : State) : Result := .next (jumpRelative (s.cond .nz) e8 s)

/-- `JR Z,e8`, 0x28: R191. -/
def execJrZE8 (e8 : Byte) (s : State) : Result := .next (jumpRelative (s.cond .z) e8 s)

/-- `JR NC,e8`, 0x30: R191. -/
def execJrNcE8 (e8 : Byte) (s : State) : Result := .next (jumpRelative (s.cond .nc) e8 s)

/-- `JR C,e8`, 0x38: R191. -/
def execJrCE8 (e8 : Byte) (s : State) : Result := .next (jumpRelative (s.cond .c) e8 s)

/-- `JP NZ,a16`, 0xC2: R193. -/
def execJpNzA16 (a16 : Word) (s : State) : Result := .next (jumpAbsolute (s.cond .nz) a16 s)

/-- `JP a16`, 0xC3: R192. -/
def execJpA16 (a16 : Word) (s : State) : Result := .next (jumpAbsolute true a16 s)

/-- `JP Z,a16`, 0xCA: R193. -/
def execJpZA16 (a16 : Word) (s : State) : Result := .next (jumpAbsolute (s.cond .z) a16 s)

/-- `JP NC,a16`, 0xD2: R193. -/
def execJpNcA16 (a16 : Word) (s : State) : Result := .next (jumpAbsolute (s.cond .nc) a16 s)

/-- `JP C,a16`, 0xDA: R193. -/
def execJpCA16 (a16 : Word) (s : State) : Result := .next (jumpAbsolute (s.cond .c) a16 s)

/-- `JP HL`, 0xE9: R194. -/
def execJpHl (s : State) : Result := .next (s.setPc s.hl)

end Sys2Proof.Machine
end

