-- ==== Sys2Proof/Machine/Loads.lean ====
section
/-! DEFINITION. The meanings of the loads and stores (40_loads.md): shared operations first, then one definition per row of
spec/opcode_table.json. At the start of a meaning `pc` is past the opcode bytes (R9, R100). -/

namespace Sys2Proof.Machine

/-- `x[r] <- x[r']` (R120). -/
def loadReg (r r' : Reg8) (s : State) : State := s.set8 r (s.get8 r')

/-- `x[r] <- MemRead(addr, 1)` (R121, R125, R133, R136, R138). -/
def loadFrom (r : Reg8) (addr : Word) (s : State) : State := readByteThen addr s fun v => s.set8 r v

/-- `MemWrite(addr, 1, v)` (R123, R126, R127, R134, R135, R137). -/
def storeAt (addr : Word) (v : Byte) (s : State) : State := writeByteThen addr v s fun t => t

/-- `v <- Imm8(); x[r] <- v` (R122), the immediate `v` already read. -/
def loadImm8 (r : Reg8) (v : Byte) (s : State) : State := (s.advancePc 1).set8 r v

/-- `v <- Imm16(); x[rr] <- v` (R124), the immediate `v` already read. -/
def loadImm16 (w : Wide) (v : Word) (s : State) : State := (s.advancePc 2).setWide w v

/-- HL moves by one modulo 65536 after the transfer (R129 to R132). -/
def State.stepHl (s : State) (move : Word → Word) : State := s.setPair .hl (move s.hl)

/-- `x[A] <- MemRead(x[HL], 1)`, then HL moves (R129, R131): the transfer comes first. -/
def loadAuto (move : Word → Word) (s : State) : State :=
  readByteThen s.hl s fun v => (s.set8 .a v).stepHl move

/-- `MemWrite(x[HL], 1, x[A])`, then HL moves (R130, R132): only when the store did not fault. -/
def storeAuto (move : Word → Word) (s : State) : State :=
  writeByteThen s.hl s.a s fun t => t.stepHl move

/-- `LD BC,d16`, 0x01: R124. -/
def execLdBcD16 (d16 : Word) (s : State) : Result := .next (loadImm16 .bc d16 s)

/-- `LD (BC),A`, 0x02: R126. -/
def execLdIndBcA (s : State) : Result := .next (storeAt (s.getPair .bc) s.a s)

/-- `LD B,d8`, 0x06: R122. -/
def execLdBD8 (d8 : Byte) (s : State) : Result := .next (loadImm8 .b d8 s)

/-- `LD A,(BC)`, 0x0A: R125. -/
def execLdAIndBc (s : State) : Result := .next (loadFrom .a (s.getPair .bc) s)

/-- `LD C,d8`, 0x0E: R122. -/
def execLdCD8 (d8 : Byte) (s : State) : Result := .next (loadImm8 .c d8 s)

/-- `LD DE,d16`, 0x11: R124. -/
def execLdDeD16 (d16 : Word) (s : State) : Result := .next (loadImm16 .de d16 s)

/-- `LD (DE),A`, 0x12: R126. -/
def execLdIndDeA (s : State) : Result := .next (storeAt (s.getPair .de) s.a s)

/-- `LD D,d8`, 0x16: R122. -/
def execLdDD8 (d8 : Byte) (s : State) : Result := .next (loadImm8 .d d8 s)

/-- `LD A,(DE)`, 0x1A: R125. -/
def execLdAIndDe (s : State) : Result := .next (loadFrom .a (s.getPair .de) s)

/-- `LD E,d8`, 0x1E: R122. -/
def execLdED8 (d8 : Byte) (s : State) : Result := .next (loadImm8 .e d8 s)

/-- `LD HL,d16`, 0x21: R124. -/
def execLdHlD16 (d16 : Word) (s : State) : Result := .next (loadImm16 .hl d16 s)

/-- `LD (HL+),A`, 0x22: R130. -/
def execLdIndHlIncA (s : State) : Result := .next (storeAuto (fun v => v + 1) s)

/-- `LD H,d8`, 0x26: R122. -/
def execLdHD8 (d8 : Byte) (s : State) : Result := .next (loadImm8 .h d8 s)

/-- `LD A,(HL+)`, 0x2A: R129. -/
def execLdAIndHlInc (s : State) : Result := .next (loadAuto (fun v => v + 1) s)

/-- `LD L,d8`, 0x2E: R122. -/
def execLdLD8 (d8 : Byte) (s : State) : Result := .next (loadImm8 .l d8 s)

/-- `LD SP,d16`, 0x31: R124. -/
def execLdSpD16 (d16 : Word) (s : State) : Result := .next (loadImm16 .sp d16 s)

/-- `LD (HL-),A`, 0x32: R132. -/
def execLdIndHlDecA (s : State) : Result := .next (storeAuto (fun v => v - 1) s)

/-- `LD (HL),d8`, 0x36: R123. -/
def execLdIndHlD8 (d8 : Byte) (s : State) : Result := .next (storeAt s.hl d8 (s.advancePc 1))

/-- `LD A,(HL-)`, 0x3A: R131. -/
def execLdAIndHlDec (s : State) : Result := .next (loadAuto (fun v => v - 1) s)

/-- `LD A,d8`, 0x3E: R122. -/
def execLdAD8 (d8 : Byte) (s : State) : Result := .next (loadImm8 .a d8 s)

/-- `LD B,B`, 0x40: R120. -/
def execLdBB (s : State) : Result := .next (loadReg .b .b s)

/-- `LD B,C`, 0x41: R120. -/
def execLdBC (s : State) : Result := .next (loadReg .b .c s)

/-- `LD B,D`, 0x42: R120. -/
def execLdBD (s : State) : Result := .next (loadReg .b .d s)

/-- `LD B,E`, 0x43: R120. -/
def execLdBE (s : State) : Result := .next (loadReg .b .e s)

/-- `LD B,H`, 0x44: R120. -/
def execLdBH (s : State) : Result := .next (loadReg .b .h s)

/-- `LD B,L`, 0x45: R120. -/
def execLdBL (s : State) : Result := .next (loadReg .b .l s)

/-- `LD B,(HL)`, 0x46: R121. -/
def execLdBIndHl (s : State) : Result := .next (loadFrom .b s.hl s)

/-- `LD B,A`, 0x47: R120. -/
def execLdBA (s : State) : Result := .next (loadReg .b .a s)

/-- `LD C,B`, 0x48: R120. -/
def execLdCB (s : State) : Result := .next (loadReg .c .b s)

/-- `LD C,C`, 0x49: R120. -/
def execLdCC (s : State) : Result := .next (loadReg .c .c s)

/-- `LD C,D`, 0x4A: R120. -/
def execLdCD (s : State) : Result := .next (loadReg .c .d s)

/-- `LD C,E`, 0x4B: R120. -/
def execLdCE (s : State) : Result := .next (loadReg .c .e s)

/-- `LD C,H`, 0x4C: R120. -/
def execLdCH (s : State) : Result := .next (loadReg .c .h s)

/-- `LD C,L`, 0x4D: R120. -/
def execLdCL (s : State) : Result := .next (loadReg .c .l s)

/-- `LD C,(HL)`, 0x4E: R121. -/
def execLdCIndHl (s : State) : Result := .next (loadFrom .c s.hl s)

/-- `LD C,A`, 0x4F: R120. -/
def execLdCA (s : State) : Result := .next (loadReg .c .a s)

/-- `LD D,B`, 0x50: R120. -/
def execLdDB (s : State) : Result := .next (loadReg .d .b s)

/-- `LD D,C`, 0x51: R120. -/
def execLdDC (s : State) : Result := .next (loadReg .d .c s)

/-- `LD D,D`, 0x52: R120. -/
def execLdDD (s : State) : Result := .next (loadReg .d .d s)

/-- `LD D,E`, 0x53: R120. -/
def execLdDE (s : State) : Result := .next (loadReg .d .e s)

/-- `LD D,H`, 0x54: R120. -/
def execLdDH (s : State) : Result := .next (loadReg .d .h s)

/-- `LD D,L`, 0x55: R120. -/
def execLdDL (s : State) : Result := .next (loadReg .d .l s)

/-- `LD D,(HL)`, 0x56: R121. -/
def execLdDIndHl (s : State) : Result := .next (loadFrom .d s.hl s)

/-- `LD D,A`, 0x57: R120. -/
def execLdDA (s : State) : Result := .next (loadReg .d .a s)

/-- `LD E,B`, 0x58: R120. -/
def execLdEB (s : State) : Result := .next (loadReg .e .b s)

/-- `LD E,C`, 0x59: R120. -/
def execLdEC (s : State) : Result := .next (loadReg .e .c s)

/-- `LD E,D`, 0x5A: R120. -/
def execLdED (s : State) : Result := .next (loadReg .e .d s)

/-- `LD E,E`, 0x5B: R120. -/
def execLdEE (s : State) : Result := .next (loadReg .e .e s)

/-- `LD E,H`, 0x5C: R120. -/
def execLdEH (s : State) : Result := .next (loadReg .e .h s)

/-- `LD E,L`, 0x5D: R120. -/
def execLdEL (s : State) : Result := .next (loadReg .e .l s)

/-- `LD E,(HL)`, 0x5E: R121. -/
def execLdEIndHl (s : State) : Result := .next (loadFrom .e s.hl s)

/-- `LD E,A`, 0x5F: R120. -/
def execLdEA (s : State) : Result := .next (loadReg .e .a s)

/-- `LD H,B`, 0x60: R120. -/
def execLdHB (s : State) : Result := .next (loadReg .h .b s)

/-- `LD H,C`, 0x61: R120. -/
def execLdHC (s : State) : Result := .next (loadReg .h .c s)

/-- `LD H,D`, 0x62: R120. -/
def execLdHD (s : State) : Result := .next (loadReg .h .d s)

/-- `LD H,E`, 0x63: R120. -/
def execLdHE (s : State) : Result := .next (loadReg .h .e s)

/-- `LD H,H`, 0x64: R120. -/
def execLdHH (s : State) : Result := .next (loadReg .h .h s)

/-- `LD H,L`, 0x65: R120. -/
def execLdHL (s : State) : Result := .next (loadReg .h .l s)

/-- `LD H,(HL)`, 0x66: R121. -/
def execLdHIndHl (s : State) : Result := .next (loadFrom .h s.hl s)

/-- `LD H,A`, 0x67: R120. -/
def execLdHA (s : State) : Result := .next (loadReg .h .a s)

/-- `LD L,B`, 0x68: R120. -/
def execLdLB (s : State) : Result := .next (loadReg .l .b s)

/-- `LD L,C`, 0x69: R120. -/
def execLdLC (s : State) : Result := .next (loadReg .l .c s)

/-- `LD L,D`, 0x6A: R120. -/
def execLdLD (s : State) : Result := .next (loadReg .l .d s)

/-- `LD L,E`, 0x6B: R120. -/
def execLdLE (s : State) : Result := .next (loadReg .l .e s)

/-- `LD L,H`, 0x6C: R120. -/
def execLdLH (s : State) : Result := .next (loadReg .l .h s)

/-- `LD L,L`, 0x6D: R120. -/
def execLdLL (s : State) : Result := .next (loadReg .l .l s)

/-- `LD L,(HL)`, 0x6E: R121. -/
def execLdLIndHl (s : State) : Result := .next (loadFrom .l s.hl s)

/-- `LD L,A`, 0x6F: R120. -/
def execLdLA (s : State) : Result := .next (loadReg .l .a s)

/-- `LD (HL),B`, 0x70: R127. -/
def execLdIndHlB (s : State) : Result := .next (storeAt s.hl s.b s)

/-- `LD (HL),C`, 0x71: R127. -/
def execLdIndHlC (s : State) : Result := .next (storeAt s.hl s.c s)

/-- `LD (HL),D`, 0x72: R127. -/
def execLdIndHlD (s : State) : Result := .next (storeAt s.hl s.d s)

/-- `LD (HL),E`, 0x73: R127. -/
def execLdIndHlE (s : State) : Result := .next (storeAt s.hl s.e s)

/-- `LD (HL),H`, 0x74: R127. -/
def execLdIndHlH (s : State) : Result := .next (storeAt s.hl s.h s)

/-- `LD (HL),L`, 0x75: R127. -/
def execLdIndHlL (s : State) : Result := .next (storeAt s.hl s.l s)

/-- `LD (HL),A`, 0x77: R127. -/
def execLdIndHlA (s : State) : Result := .next (storeAt s.hl s.a s)

/-- `LD A,B`, 0x78: R120. -/
def execLdAB (s : State) : Result := .next (loadReg .a .b s)

/-- `LD A,C`, 0x79: R120. -/
def execLdAC (s : State) : Result := .next (loadReg .a .c s)

/-- `LD A,D`, 0x7A: R120. -/
def execLdAD (s : State) : Result := .next (loadReg .a .d s)

/-- `LD A,E`, 0x7B: R120. -/
def execLdAE (s : State) : Result := .next (loadReg .a .e s)

/-- `LD A,H`, 0x7C: R120. -/
def execLdAH (s : State) : Result := .next (loadReg .a .h s)

/-- `LD A,L`, 0x7D: R120. -/
def execLdAL (s : State) : Result := .next (loadReg .a .l s)

/-- `LD A,(HL)`, 0x7E: R121. -/
def execLdAIndHl (s : State) : Result := .next (loadFrom .a s.hl s)

/-- `LD A,A`, 0x7F: R120. -/
def execLdAA (s : State) : Result := .next (loadReg .a .a s)

/-- `LDH (a8),A`, 0xE0: R135. -/
def execLdhIndA8A (a8 : Byte) (s : State) : Result := .next (storeAt (ioAddress a8) s.a (s.advancePc 1))

/-- `LD (C),A`, 0xE2: R137. -/
def execLdIndCA (s : State) : Result := .next (storeAt (ioAddress s.c) s.a s)

/-- `LD (a16),A`, 0xEA: R134. -/
def execLdIndA16A (a16 : Word) (s : State) : Result := .next (storeAt a16 s.a (s.advancePc 2))

/-- `LDH A,(a8)`, 0xF0: R136. -/
def execLdhAIndA8 (a8 : Byte) (s : State) : Result := .next (loadFrom .a (ioAddress a8) (s.advancePc 1))

/-- `LD A,(C)`, 0xF2: R138. -/
def execLdAIndC (s : State) : Result := .next (loadFrom .a (ioAddress s.c) s)

/-- `LD A,(a16)`, 0xFA: R133. -/
def execLdAIndA16 (a16 : Word) (s : State) : Result := .next (loadFrom .a a16 (s.advancePc 2))

end Sys2Proof.Machine
end

