-- ==== Sys2Proof/Machine/Logic.lean ====
section
/-! DEFINITION. The meanings of the logic (43_logic.md): shared operations first, then one definition per row of
spec/opcode_table.json. At the start of a meaning `pc` is past the opcode bytes (R9, R100). -/

namespace Sys2Proof.Machine

/-- `x[A] <- res` with Z from the result, N = 0, C = 0 and the given Half-Carry (R175, R178, R181). -/
def logicA (res : Byte) (half : Bool) (s : State) : State :=
  { s with a := res }.writeZNHC (zeroOf res) false half false

/-- Exclusive or into A (R175). -/
def xorA (v : Byte) (s : State) : State := logicA (s.a ^^^ v) false s

/-- And into A: Half-Carry is set (R178). -/
def andA (v : Byte) (s : State) : State := logicA (s.a &&& v) true s

/-- Or into A (R181). -/
def orA (v : Byte) (s : State) : State := logicA (s.a ||| v) false s

/-- `AND B`, 0xA0: R178. -/
def execAndB (s : State) : Result := .next (readOperandThen (.reg .b) s fun v => andA v s)

/-- `AND C`, 0xA1: R178. -/
def execAndC (s : State) : Result := .next (readOperandThen (.reg .c) s fun v => andA v s)

/-- `AND D`, 0xA2: R178. -/
def execAndD (s : State) : Result := .next (readOperandThen (.reg .d) s fun v => andA v s)

/-- `AND E`, 0xA3: R178. -/
def execAndE (s : State) : Result := .next (readOperandThen (.reg .e) s fun v => andA v s)

/-- `AND H`, 0xA4: R178. -/
def execAndH (s : State) : Result := .next (readOperandThen (.reg .h) s fun v => andA v s)

/-- `AND L`, 0xA5: R178. -/
def execAndL (s : State) : Result := .next (readOperandThen (.reg .l) s fun v => andA v s)

/-- `AND (HL)`, 0xA6: R179. -/
def execAndIndHl (s : State) : Result := .next (readOperandThen .indHl s fun v => andA v s)

/-- `AND A`, 0xA7: R178. -/
def execAndA (s : State) : Result := .next (readOperandThen (.reg .a) s fun v => andA v s)

/-- `XOR B`, 0xA8: R175. -/
def execXorB (s : State) : Result := .next (readOperandThen (.reg .b) s fun v => xorA v s)

/-- `XOR C`, 0xA9: R175. -/
def execXorC (s : State) : Result := .next (readOperandThen (.reg .c) s fun v => xorA v s)

/-- `XOR D`, 0xAA: R175. -/
def execXorD (s : State) : Result := .next (readOperandThen (.reg .d) s fun v => xorA v s)

/-- `XOR E`, 0xAB: R175. -/
def execXorE (s : State) : Result := .next (readOperandThen (.reg .e) s fun v => xorA v s)

/-- `XOR H`, 0xAC: R175. -/
def execXorH (s : State) : Result := .next (readOperandThen (.reg .h) s fun v => xorA v s)

/-- `XOR L`, 0xAD: R175. -/
def execXorL (s : State) : Result := .next (readOperandThen (.reg .l) s fun v => xorA v s)

/-- `XOR (HL)`, 0xAE: R176. -/
def execXorIndHl (s : State) : Result := .next (readOperandThen .indHl s fun v => xorA v s)

/-- `XOR A`, 0xAF: R175. -/
def execXorA (s : State) : Result := .next (readOperandThen (.reg .a) s fun v => xorA v s)

/-- `OR B`, 0xB0: R181. -/
def execOrB (s : State) : Result := .next (readOperandThen (.reg .b) s fun v => orA v s)

/-- `OR C`, 0xB1: R181. -/
def execOrC (s : State) : Result := .next (readOperandThen (.reg .c) s fun v => orA v s)

/-- `OR D`, 0xB2: R181. -/
def execOrD (s : State) : Result := .next (readOperandThen (.reg .d) s fun v => orA v s)

/-- `OR E`, 0xB3: R181. -/
def execOrE (s : State) : Result := .next (readOperandThen (.reg .e) s fun v => orA v s)

/-- `OR H`, 0xB4: R181. -/
def execOrH (s : State) : Result := .next (readOperandThen (.reg .h) s fun v => orA v s)

/-- `OR L`, 0xB5: R181. -/
def execOrL (s : State) : Result := .next (readOperandThen (.reg .l) s fun v => orA v s)

/-- `OR (HL)`, 0xB6: R182. -/
def execOrIndHl (s : State) : Result := .next (readOperandThen .indHl s fun v => orA v s)

/-- `OR A`, 0xB7: R181. -/
def execOrA (s : State) : Result := .next (readOperandThen (.reg .a) s fun v => orA v s)

/-- `AND d8`, 0xE6: R180. -/
def execAndD8 (d8 : Byte) (s : State) : Result := .next (andA d8 (s.advancePc 1))

/-- `XOR d8`, 0xEE: R177. -/
def execXorD8 (d8 : Byte) (s : State) : Result := .next (xorA d8 (s.advancePc 1))

/-- `OR d8`, 0xF6: R183. -/
def execOrD8 (d8 : Byte) (s : State) : Result := .next (orA d8 (s.advancePc 1))

end Sys2Proof.Machine
end

