-- ==== Sys2Proof/Machine/Rotates.lean ====
section
/-! DEFINITION. The meanings of the rotates and shifts (48_rotates.md): shared operations first, then one definition per row of
spec/opcode_table.json. At the start of a meaning `pc` is past the opcode bytes (R9, R100). -/

namespace Sys2Proof.Machine

/-- Rotate left, bit 7 to bit 0: `{v[6:0], v[7]}` (R215). -/
def rotl (v : Byte) : Byte := v.extractLsb' 0 7 ++ v.extractLsb' 7 1

/-- Rotate right, bit 0 to bit 7: `{v[0], v[7:1]}` (R217). -/
def rotr (v : Byte) : Byte := v.extractLsb' 0 1 ++ v.extractLsb' 1 7

/-- Rotate left through Carry: `{v[6:0], cin}` (R219). -/
def rotlThrough (cin : Bool) (v : Byte) : Byte := v.extractLsb' 0 7 ++ BitVec.ofBool cin

/-- Rotate right through Carry: `{cin, v[7:1]}` (R221). -/
def rotrThrough (cin : Bool) (v : Byte) : Byte := BitVec.ofBool cin ++ v.extractLsb' 1 7

/-- Shift left: `{v[6:0], 0}` (R227). -/
def shiftLeft (v : Byte) : Byte := v.extractLsb' 0 7 ++ 0#1

/-- Arithmetic shift right: `{v[7], v[7:1]}` (R229). -/
def shiftRightArith (v : Byte) : Byte := v.extractLsb' 7 1 ++ v.extractLsb' 1 7

/-- Logical shift right: `{0, v[7:1]}` (R231). -/
def shiftRightLogic (v : Byte) : Byte := 0#1 ++ v.extractLsb' 1 7

/-- The bit that leaves on the left (R215). -/
def bit7 (v : Byte) : Bool := v.getLsbD 7

/-- The bit that leaves on the right (R217). -/
def bit0 (v : Byte) : Bool := v.getLsbD 0

/-- A prefixed rotate or shift of an operand (R233): the result back, then Z from it, N = H = 0, C the bit that left. -/
def rotateOperand (res : Byte → Byte) (out : Byte → Bool) (o : Operand8) (s : State) : State :=
  modifyOperand res (fun v t => t.writeZNHC (zeroOf (res v)) false false (out v)) o s

/-- A one-byte accumulator rotate (R223 to R226): as the prefixed form on A, but for Z where the parameter
`ACC_ROTATE_Z_FROM_RESULT` is false (U6). -/
def rotateA (res : Byte → Byte) (out : Byte → Bool) (s : State) : State :=
  { s with a := res s.a }.writeZNHC (s.config.accRotateZFromResult && zeroOf (res s.a)) false false (out s.a)

/-- `RLCA`, 0x07: R223. -/
def execRlcaAcc (s : State) : Result := .next (rotateA rotl bit7 s)

/-- `RRCA`, 0x0F: R224. -/
def execRrcaAcc (s : State) : Result := .next (rotateA rotr bit0 s)

/-- `RLA`, 0x17: R225. -/
def execRlaAcc (s : State) : Result := .next (rotateA (rotlThrough s.cin) bit7 s)

/-- `RRA`, 0x1F: R226. -/
def execRraAcc (s : State) : Result := .next (rotateA (rotrThrough s.cin) bit0 s)

/-- `RLC B`, 0xCB 0x00: R215. -/
def execRlcB (s : State) : Result := .next (rotateOperand rotl bit7 (.reg .b) s)

/-- `RLC C`, 0xCB 0x01: R215. -/
def execRlcC (s : State) : Result := .next (rotateOperand rotl bit7 (.reg .c) s)

/-- `RLC D`, 0xCB 0x02: R215. -/
def execRlcD (s : State) : Result := .next (rotateOperand rotl bit7 (.reg .d) s)

/-- `RLC E`, 0xCB 0x03: R215. -/
def execRlcE (s : State) : Result := .next (rotateOperand rotl bit7 (.reg .e) s)

/-- `RLC H`, 0xCB 0x04: R215. -/
def execRlcH (s : State) : Result := .next (rotateOperand rotl bit7 (.reg .h) s)

/-- `RLC L`, 0xCB 0x05: R215. -/
def execRlcL (s : State) : Result := .next (rotateOperand rotl bit7 (.reg .l) s)

/-- `RLC (HL)`, 0xCB 0x06: R216. -/
def execRlcIndHl (s : State) : Result := .next (rotateOperand rotl bit7 .indHl s)

/-- `RLC A`, 0xCB 0x07: R215. -/
def execRlcA (s : State) : Result := .next (rotateOperand rotl bit7 (.reg .a) s)

/-- `RRC B`, 0xCB 0x08: R217. -/
def execRrcB (s : State) : Result := .next (rotateOperand rotr bit0 (.reg .b) s)

/-- `RRC C`, 0xCB 0x09: R217. -/
def execRrcC (s : State) : Result := .next (rotateOperand rotr bit0 (.reg .c) s)

/-- `RRC D`, 0xCB 0x0A: R217. -/
def execRrcD (s : State) : Result := .next (rotateOperand rotr bit0 (.reg .d) s)

/-- `RRC E`, 0xCB 0x0B: R217. -/
def execRrcE (s : State) : Result := .next (rotateOperand rotr bit0 (.reg .e) s)

/-- `RRC H`, 0xCB 0x0C: R217. -/
def execRrcH (s : State) : Result := .next (rotateOperand rotr bit0 (.reg .h) s)

/-- `RRC L`, 0xCB 0x0D: R217. -/
def execRrcL (s : State) : Result := .next (rotateOperand rotr bit0 (.reg .l) s)

/-- `RRC (HL)`, 0xCB 0x0E: R218. -/
def execRrcIndHl (s : State) : Result := .next (rotateOperand rotr bit0 .indHl s)

/-- `RRC A`, 0xCB 0x0F: R217. -/
def execRrcA (s : State) : Result := .next (rotateOperand rotr bit0 (.reg .a) s)

/-- `RL B`, 0xCB 0x10: R219. -/
def execRlB (s : State) : Result := .next (rotateOperand (rotlThrough s.cin) bit7 (.reg .b) s)

/-- `RL C`, 0xCB 0x11: R219. -/
def execRlC (s : State) : Result := .next (rotateOperand (rotlThrough s.cin) bit7 (.reg .c) s)

/-- `RL D`, 0xCB 0x12: R219. -/
def execRlD (s : State) : Result := .next (rotateOperand (rotlThrough s.cin) bit7 (.reg .d) s)

/-- `RL E`, 0xCB 0x13: R219. -/
def execRlE (s : State) : Result := .next (rotateOperand (rotlThrough s.cin) bit7 (.reg .e) s)

/-- `RL H`, 0xCB 0x14: R219. -/
def execRlH (s : State) : Result := .next (rotateOperand (rotlThrough s.cin) bit7 (.reg .h) s)

/-- `RL L`, 0xCB 0x15: R219. -/
def execRlL (s : State) : Result := .next (rotateOperand (rotlThrough s.cin) bit7 (.reg .l) s)

/-- `RL (HL)`, 0xCB 0x16: R220. -/
def execRlIndHl (s : State) : Result := .next (rotateOperand (rotlThrough s.cin) bit7 .indHl s)

/-- `RL A`, 0xCB 0x17: R219. -/
def execRlA (s : State) : Result := .next (rotateOperand (rotlThrough s.cin) bit7 (.reg .a) s)

/-- `RR B`, 0xCB 0x18: R221. -/
def execRrB (s : State) : Result := .next (rotateOperand (rotrThrough s.cin) bit0 (.reg .b) s)

/-- `RR C`, 0xCB 0x19: R221. -/
def execRrC (s : State) : Result := .next (rotateOperand (rotrThrough s.cin) bit0 (.reg .c) s)

/-- `RR D`, 0xCB 0x1A: R221. -/
def execRrD (s : State) : Result := .next (rotateOperand (rotrThrough s.cin) bit0 (.reg .d) s)

/-- `RR E`, 0xCB 0x1B: R221. -/
def execRrE (s : State) : Result := .next (rotateOperand (rotrThrough s.cin) bit0 (.reg .e) s)

/-- `RR H`, 0xCB 0x1C: R221. -/
def execRrH (s : State) : Result := .next (rotateOperand (rotrThrough s.cin) bit0 (.reg .h) s)

/-- `RR L`, 0xCB 0x1D: R221. -/
def execRrL (s : State) : Result := .next (rotateOperand (rotrThrough s.cin) bit0 (.reg .l) s)

/-- `RR (HL)`, 0xCB 0x1E: R222. -/
def execRrIndHl (s : State) : Result := .next (rotateOperand (rotrThrough s.cin) bit0 .indHl s)

/-- `RR A`, 0xCB 0x1F: R221. -/
def execRrA (s : State) : Result := .next (rotateOperand (rotrThrough s.cin) bit0 (.reg .a) s)

/-- `SLA B`, 0xCB 0x20: R227. -/
def execSlaB (s : State) : Result := .next (rotateOperand shiftLeft bit7 (.reg .b) s)

/-- `SLA C`, 0xCB 0x21: R227. -/
def execSlaC (s : State) : Result := .next (rotateOperand shiftLeft bit7 (.reg .c) s)

/-- `SLA D`, 0xCB 0x22: R227. -/
def execSlaD (s : State) : Result := .next (rotateOperand shiftLeft bit7 (.reg .d) s)

/-- `SLA E`, 0xCB 0x23: R227. -/
def execSlaE (s : State) : Result := .next (rotateOperand shiftLeft bit7 (.reg .e) s)

/-- `SLA H`, 0xCB 0x24: R227. -/
def execSlaH (s : State) : Result := .next (rotateOperand shiftLeft bit7 (.reg .h) s)

/-- `SLA L`, 0xCB 0x25: R227. -/
def execSlaL (s : State) : Result := .next (rotateOperand shiftLeft bit7 (.reg .l) s)

/-- `SLA (HL)`, 0xCB 0x26: R228. -/
def execSlaIndHl (s : State) : Result := .next (rotateOperand shiftLeft bit7 .indHl s)

/-- `SLA A`, 0xCB 0x27: R227. -/
def execSlaA (s : State) : Result := .next (rotateOperand shiftLeft bit7 (.reg .a) s)

/-- `SRA B`, 0xCB 0x28: R229. -/
def execSraB (s : State) : Result := .next (rotateOperand shiftRightArith bit0 (.reg .b) s)

/-- `SRA C`, 0xCB 0x29: R229. -/
def execSraC (s : State) : Result := .next (rotateOperand shiftRightArith bit0 (.reg .c) s)

/-- `SRA D`, 0xCB 0x2A: R229. -/
def execSraD (s : State) : Result := .next (rotateOperand shiftRightArith bit0 (.reg .d) s)

/-- `SRA E`, 0xCB 0x2B: R229. -/
def execSraE (s : State) : Result := .next (rotateOperand shiftRightArith bit0 (.reg .e) s)

/-- `SRA H`, 0xCB 0x2C: R229. -/
def execSraH (s : State) : Result := .next (rotateOperand shiftRightArith bit0 (.reg .h) s)

/-- `SRA L`, 0xCB 0x2D: R229. -/
def execSraL (s : State) : Result := .next (rotateOperand shiftRightArith bit0 (.reg .l) s)

/-- `SRA (HL)`, 0xCB 0x2E: R230. -/
def execSraIndHl (s : State) : Result := .next (rotateOperand shiftRightArith bit0 .indHl s)

/-- `SRA A`, 0xCB 0x2F: R229. -/
def execSraA (s : State) : Result := .next (rotateOperand shiftRightArith bit0 (.reg .a) s)

/-- `SRL B`, 0xCB 0x38: R231. -/
def execSrlB (s : State) : Result := .next (rotateOperand shiftRightLogic bit0 (.reg .b) s)

/-- `SRL C`, 0xCB 0x39: R231. -/
def execSrlC (s : State) : Result := .next (rotateOperand shiftRightLogic bit0 (.reg .c) s)

/-- `SRL D`, 0xCB 0x3A: R231. -/
def execSrlD (s : State) : Result := .next (rotateOperand shiftRightLogic bit0 (.reg .d) s)

/-- `SRL E`, 0xCB 0x3B: R231. -/
def execSrlE (s : State) : Result := .next (rotateOperand shiftRightLogic bit0 (.reg .e) s)

/-- `SRL H`, 0xCB 0x3C: R231. -/
def execSrlH (s : State) : Result := .next (rotateOperand shiftRightLogic bit0 (.reg .h) s)

/-- `SRL L`, 0xCB 0x3D: R231. -/
def execSrlL (s : State) : Result := .next (rotateOperand shiftRightLogic bit0 (.reg .l) s)

/-- `SRL (HL)`, 0xCB 0x3E: R232. -/
def execSrlIndHl (s : State) : Result := .next (rotateOperand shiftRightLogic bit0 .indHl s)

/-- `SRL A`, 0xCB 0x3F: R231. -/
def execSrlA (s : State) : Result := .next (rotateOperand shiftRightLogic bit0 (.reg .a) s)

end Sys2Proof.Machine
end

