-- ==== Sys2Proof/Machine/Stack.lean ====
section
/-! DEFINITION. The meanings of the stack (47_stack.md): shared operations first, then one definition per row of
spec/opcode_table.json. At the start of a meaning `pc` is past the opcode bytes (R9, R100). -/

namespace Sys2Proof.Machine

/-- `PUSH rr` (R210, R211). -/
def pushPair (p : Pair) (s : State) : State := pushThen (s.getPair p) s fun t => t

/-- `POP rr` (R212, R213). -/
def popPair (p : Pair) (s : State) : State := popThen s fun v t => t.setPair p v

/-- `POP BC`, 0xC1: R212. -/
def execPopBc (s : State) : Result := .next (popPair .bc s)

/-- `PUSH BC`, 0xC5: R210. -/
def execPushBc (s : State) : Result := .next (pushPair .bc s)

/-- `POP DE`, 0xD1: R212. -/
def execPopDe (s : State) : Result := .next (popPair .de s)

/-- `PUSH DE`, 0xD5: R210. -/
def execPushDe (s : State) : Result := .next (pushPair .de s)

/-- `POP HL`, 0xE1: R212. -/
def execPopHl (s : State) : Result := .next (popPair .hl s)

/-- `PUSH HL`, 0xE5: R210. -/
def execPushHl (s : State) : Result := .next (pushPair .hl s)

/-- `POP AF`, 0xF1: R213. -/
def execPopAf (s : State) : Result := .next (popPair .af s)

/-- `PUSH AF`, 0xF5: R211. -/
def execPushAf (s : State) : Result := .next (pushPair .af s)

end Sys2Proof.Machine
end

