-- ==== Sys2Proof/Machine/Fetch.lean ====
section
/-! DEFINITION. The first half of the sequencer's cycle (R100): the opcode byte, the prefix, the lookup, and the immediate
bytes of the row. -/

namespace Sys2Proof.Machine

/-- What the first half of a cycle ends in: an instruction, with `pc` past the opcode bytes, or a fault taken. -/
inductive Fetched
  | instr (i : Instr) (s : State)
  | raised (s : State)
  deriving DecidableEq, Repr

/-- The bytes an instruction's own `Imm8` or `Imm16` reads at `pc` (R9), low byte first (R60, R93). Every rule that has an
immediate reads it before anything else, so reading it here keeps the order of R250; the instruction itself advances `pc`
past it (R94), and `pc` is not moved when the read faults. -/
def fetchOperands (row : Row) (s : State) : Fetched :=
  match row with
  | .noImm i => .instr i s
  | .imm8 make =>
    match s.readByte s.pc with
    | some v => .instr (make v) s
    | none => .raised (s.raise (.unmappedAddressError s.pc))
  | .imm16 make =>
    match s.readByte s.pc with
    | none => .raised (s.raise (.unmappedAddressError s.pc))
    | some lo =>
      match s.readByte (s.pc + 1) with
      | none => .raised (s.raise (.unmappedAddressError (s.pc + 1)))
      | some hi => .instr (make (wordOf hi lo)) s

/-- The lookup (R100, R110): a key with no row is DecodeError with the address of the first opcode byte. -/
def dispatchKey (key instrAddr : Word) (s : State) : Fetched :=
  match lookup s.config key with
  | none => .raised (s.raise (.decodeError key instrAddr))
  | some row => fetchOperands row s

/-- Fetch, prefix fetch and lookup (R100). `instrAddr` is the `pc` of the first opcode byte (R34). -/
def fetch (s : State) : Fetched :=
  match s.readByte s.pc with
  | none => .raised (s.raise (.unmappedAddressError s.pc))
  | some op =>
    if op = prefixByte then
      match s.readByte (s.pc + 1) with
      | none => .raised ((s.advancePc 1).raise (.unmappedAddressError (s.pc + 1)))
      | some second => dispatchKey (prefixedKey second) s.pc (s.advancePc 2)
    else dispatchKey (plainKey op) s.pc (s.advancePc 1)

/-- The bytes the sequencer can read from an address on, at most `n`, up to the first unmapped one. -/
def State.bytesFrom (s : State) : Word → Nat → List Byte
  | _, 0 => []
  | addr, n + 1 =>
    match s.readByte addr with
    | none => []
    | some v => v :: s.bytesFrom (addr + 1) n

/-- The bytes at `pc` that the next cycle can read: three is the longest instruction (R90). -/
def State.window (s : State) : List Byte := s.bytesFrom s.pc 3

/-- Put a byte into memory from outside the machine, in ROM too, as construction does (R54); where no byte exists nothing
is stored. -/
def State.pokeByte (s : State) (addr : Word) (v : Byte) : State :=
  match translate s.config addr with
  | none => s
  | some (r, off) => { s with mem := Memory.write s.mem (r.cell off) v }

/-- Put bytes at rising addresses. -/
def State.pokeBytes (s : State) : Word → List Byte → State
  | _, [] => s
  | addr, v :: rest => (s.pokeByte addr v).pokeBytes (addr + 1) rest

end Sys2Proof.Machine
end

