-- ==== Sys2Proof/Machine/Step.lean ====
section
/-! DEFINITION. One step is one pass of the sequencer's cycle (R12, R100). -/

namespace Sys2Proof.Machine

/-- One cycle in engine state `running`: fetch, then the instruction (R100). A fault the cycle raises is a NEXT state whose
engine is `halted-on-error` (R246). In that terminal state no cycle runs and no state changes (R33, R240, R249): the step
answers the report as the fault the run stops with (log entry 1). The debugger hook, which can only delay or end a run
(R263), is in Debugger.lean. -/
def step (s : State) : Host.Outcome State Fault Refusal :=
  match s.engine with
  | .haltedOnError report => .fault report
  | .running =>
    match fetch s with
    | .raised t => .next t
    | .instr i t => exec i t

/-- The state with an instruction placed where the next step fetches it (`pc`), its bytes laid out by `tableBytes`; nothing
else changes. It stands for the load of `ROM_IMAGE` at construction (R54, R281; log entry 9). -/
def State.withFetchWord (s : State) (nbits w : Nat) : State := s.pokeBytes s.pc (tableBytes nbits w)

end Sys2Proof.Machine
end

