-- ==== Sys2Proof/Machine/Debugger.lean ====
section
/-! DEFINITION. The one external agent that can act on the CORE: the debugger at the hook before each cycle (R262 to R266).
Its tables are its own, not state of the CORE (R36), and none of its commands changes a `State` (R263). The texts it prints
are out of scope (R4); what it reads is modelled. -/

namespace Sys2Proof.Machine

/-- A breakpoint (R262). -/
structure Breakpoint where
  id : Nat
  address : Word
  enabled : Bool
  deriving DecidableEq, Repr

/-- The debugger's tables (R262). -/
structure Debugger where
  breakpoints : List Breakpoint
  nextId : Nat
  stepMode : Bool
  deriving DecidableEq, Repr

/-- No breakpoint yet, the first id is 1, step mode on (R262; S10 of 95_test_vectors.md). -/
def Debugger.initial : Debugger := { breakpoints := [], nextId := 1, stepMode := true }

/-- Why the hook enters the command loop (R262). -/
inductive Pause
  | breakpoint (id : Nat)
  | stepMode
  deriving DecidableEq, Repr

/-- The hook (R262): an enabled breakpoint at the current `pc`, else step mode, else free run (`none`). Where several enabled
breakpoints hold that address the spec does not say which one is reported; DESIGN CHOICE, log entry 27: the first of the
table, which is the oldest. -/
def Debugger.hook (d : Debugger) (pc : Word) : Option Pause :=
  match d.breakpoints.find? fun bp => bp.enabled && bp.address == pc with
  | some bp => some (.breakpoint bp.id)
  | none => if d.stepMode then some .stepMode else none

/-- The commands of R263. -/
inductive Command
  | resume
  | stepOne
  | infoRegisters
  | infoMem (start : Word) (size : Nat)
  | infoBreakpoints
  | breakAt (address : Word)
  | delete (id : Nat)
  | enable (id : Nat)
  | disable (id : Nat)
  | disassemble
  | kill
  deriving DecidableEq, Repr

/-- What a command reads for the operator (R263, R264), or the recoverable error it reports (R241). -/
inductive Answer
  | nothing
  | registers (a b c d e f h l : Byte) (sp pc : Word) (z n hc c' : Bool)
  | memory (bytes : List Byte)
  | breakpoints (table : List Breakpoint)
  | instruction (address : Word) (i : Instr)
  | unknownOpcode (report : Fault)
  | unmappedAddress (address : Word)
  | unknownId (id : Nat)
  deriving DecidableEq, Repr

/-- Where a command leaves the debugger: in its loop, letting the cycle proceed, or having ended the run. -/
inductive Control
  | waiting (d : Debugger)
  | resumed (d : Debugger)
  | killed
  deriving DecidableEq, Repr

/-- The guarded reads of `info mem` (R73, R264): the bytes, or the first unmapped address. What is shown of a range that runs
into an unmapped address the spec does not say; DESIGN CHOICE, log entry 26: the report of that address alone, without the
mapped bytes before it. -/
def State.inspect (s : State) : Word → Nat → Except Word (List Byte)
  | _, 0 => .ok []
  | addr, n + 1 =>
    match s.readByte addr with
    | none => .error addr
    | some v =>
      match s.inspect (addr + 1) n with
      | .error a => .error a
      | .ok rest => .ok (v :: rest)

/-- What `disassemble` says of the instruction at `pc`, without executing it (R263): an unknown opcode is a reported error.
Of a byte of the instruction that is unmapped R263 and R264 say nothing here; DESIGN CHOICE, log entry 28: the first such
address is reported and the debugger goes on. -/
def State.disassemble (s : State) : Answer :=
  match fetch s with
  | .instr i _ => .instruction s.pc i
  | .raised t =>
    match t.engine with
    | .haltedOnError (.unmappedAddressError addr) => .unmappedAddress addr
    | .haltedOnError report => .unknownOpcode report
    | .running => .nothing

/-- Set the enabled mark of one breakpoint; an id the table does not hold is an error and changes nothing (R241). -/
def Debugger.mark (d : Debugger) (id : Nat) (on : Bool) : Control × Answer :=
  if d.breakpoints.any fun bp => bp.id == id then
    (.waiting { d with breakpoints := d.breakpoints.map fun bp => if bp.id = id then { bp with enabled := on } else bp },
      .nothing)
  else (.waiting d, .unknownId id)

/-- One command (R263). No command returns a state of the CORE: none changes one. `continue` clears step mode and `step` keeps
it as it is. Ids are never used again (S10), and `delete` of an unknown one does nothing (N20;
DEDUCED, log entry 14). -/
def Debugger.command (d : Debugger) (s : State) : Command → Control × Answer
  | .resume => (.resumed { d with stepMode := false }, .nothing)
  | .stepOne => (.resumed d, .nothing)
  | .infoRegisters =>
    (.waiting d, .registers s.a s.b s.c s.d s.e s.f s.h s.l s.sp s.pc (s.flag .z) (s.flag .n) (s.flag .h) (s.flag .c))
  | .infoMem start size =>
    match s.inspect start size with
    | .ok bytes => (.waiting d, .memory bytes)
    | .error addr => (.waiting d, .unmappedAddress addr)
  | .infoBreakpoints => (.waiting d, .breakpoints d.breakpoints)
  | .breakAt address =>
    (.waiting { d with
      breakpoints := d.breakpoints ++ [{ id := d.nextId, address := address, enabled := true }],
      nextId := d.nextId + 1 }, .nothing)
  | .delete id => (.waiting { d with breakpoints := d.breakpoints.filter fun bp => bp.id != id }, .nothing)
  | .enable id => d.mark id true
  | .disable id => d.mark id false
  | .disassemble => (.waiting d, s.disassemble)
  | .kill => (.killed, .nothing)

/-- The command loop on the commands the operator gives: until one resumes or kills, the cycle waits (R262). -/
def Debugger.session : List Command → Debugger → State → Control
  | [], d, _ => .waiting d
  | cmd :: more, d, s =>
    match (d.command s cmd).1 with
    | .waiting d' => Debugger.session more d' s
    | .resumed d' => .resumed d'
    | .killed => .killed

/-- What a cycle under the debugger ends in: the step's own answer, a pause in which nothing has changed, or the end of the
run, after which no state exists (R265, U13). -/
inductive Hosted
  | cycle (d : Debugger) (r : Result)
  | paused (d : Debugger) (s : State)
  | killed

/-- One cycle with the hook before it (R100, R262). The hook exists only with `DEBUG_ENABLED`, and only where a cycle runs. -/
def hostedCycle (commands : List Command) (d : Debugger) (s : State) : Hosted :=
  if s.engine = .running ∧ s.config.debugEnabled = true then
    match d.hook s.pc with
    | none => .cycle d (step s)
    | some _ =>
      match d.session commands s with
      | .waiting d' => .paused d' s
      | .resumed d' => .cycle d' (step s)
      | .killed => .killed
  else .cycle d (step s)

end Sys2Proof.Machine
end

