-- ==== Sys2Proof/Machine/Interface.lean ====
section
/-! DEFINITION. The block's interfaces construction and reset (R267, R280). -/

namespace Sys2Proof.Machine

/-- Construction fails in one way only (R55, R241). -/
inductive ConstructionError
  /-- ROMSizeError: the image is larger than the ROM region. -/
  | romSizeError
  deriving DecidableEq, Repr

/-- Bytes put at rising addresses of the list, from a region's first one on. -/
def Memory.fill : List Host.Cell → Nat → List Byte → List Host.Cell
  | m, _, [] => m
  | m, k, v :: rest => Memory.fill (Memory.write m k v) (k + 1) rest

/-- Construction (R37, R267, R280): registers zero, ROM the image and then zero fill (R54), VRAM and IO their initial
contents (R56), the engine running; or ROMSizeError when the image is larger than the ROM region (R55). Initial contents
shorter than a region are filled up with the default, longer ones are cut (log entry 17). -/
def construct (cfg : Config) (romImage vramInit ioInit : List Byte) : Except ConstructionError State :=
  if romImage.length > cfg.romSize then .error .romSizeError
  else
    let rom := Memory.fill [] Region.rom.base romImage
    let vram := Memory.fill rom Region.vram.base (vramInit.take (Region.vram.size cfg))
    let io := Memory.fill vram Region.io.base (ioInit.take (Region.io.size cfg))
    .ok { State.reset with mem := io, config := cfg }

/-- The reset input, which the host may assert between cycles only (R280, R38): the ten registers become zero; memory, the
engine state and the parameters are unchanged, so a halted engine stays halted (R37). -/
def State.assertReset (s : State) : State :=
  { s with a := 0, b := 0, c := 0, d := 0, e := 0, f := 0, h := 0, l := 0, sp := 0, pc := 0 }

end Sys2Proof.Machine
end

