-- ==== Sys2Proof/Safety.lean ====
section
/-! DEFINITION. The words statements about the machine are made of: what a safe state is, which addresses hold a byte, what
an instruction leaves unchanged, and which instructions the spec's summary tables name. They are written from the spec's
own ranges and bit numbers, not from the definitions the machine runs on. -/

namespace Sys2Proof.Machine

/-! ### Engine -/

/-- The engine runs (R240): the state is safe to go on from. -/
abbrev State.Running (s : State) : Prop := s.engine = .running

/-- The instruction takes the fault `r` (R246): the next state is halted with that diagnostic, `pc` is past the operand
bytes the instruction consumed, and nothing else has changed. It is the case of an instruction that has written nothing
before its fault; R248 defines the halted state, and U7 warns not to build on what it holds. -/
def Halts (i : Instr) (s : State) (operands : Nat) (r : Fault) : Prop :=
  exec i s = .next { s with pc := s.pc + BitVec.ofNat 16 operands, engine := .haltedOnError r }

/-- A running step that finds the opcode bytes of `i` and only `k` of its operand bytes takes UnmappedAddressError at the
first missing one (R9, R60, R242). -/
def MissingOperandHalts (i : Instr) : Prop :=
  ∀ (s : State) (k : Nat), s.Running → i.wellFormed s.config = true → k < i.operandLength →
    s.window = (encode i).take (i.opcodeLength + k) →
      ∃ t, step s = .next t ∧
        t.engine = .haltedOnError (.unmappedAddressError (s.pc + BitVec.ofNat 16 (i.opcodeLength + k)))

/-! ### Addresses -/

/-- A byte of VRAM or IO (R51): the addresses that take a store. -/
abbrev Storable (addr : Word) : Prop :=
  (0x8000 ≤ addr.toNat ∧ addr.toNat ≤ 0x9FFF) ∨ (0xFF00 ≤ addr.toNat ∧ addr.toNat ≤ 0xFF7F)

/-- A byte of ROM, VRAM or IO (R51, R53): the addresses that can be read. -/
abbrev Readable (cfg : Config) (addr : Word) : Prop := addr.toNat < cfg.romSize ∨ Storable addr

/-- The values of SP at which a push succeeds (R284). -/
abbrev Pushable (sp : Word) : Prop :=
  (0x8002 ≤ sp.toNat ∧ sp.toNat ≤ 0xA000) ∨ (0xFF02 ≤ sp.toNat ∧ sp.toNat ≤ 0xFF80)

/-- The state of the same engine built with `DEBUG_ENABLED` as given (R5): nothing else differs. -/
def State.setDebug (s : State) (on : Bool) : State := { s with config := { s.config with debugEnabled := on } }

/-! ### Invariant -/

/-- What every reachable state keeps: a legal `ROM_SIZE` (R5), the low nibble of F zero (R27), the memory list in its
canonical form, and no byte held outside the three regions (R53). -/
structure State.Inv (s : State) : Prop where
  romSize : s.config.wf = true
  lowNibble : s.f &&& 0x0F#8 = 0#8
  canonical : Memory.wf s.mem = true
  inRegions : ∀ cell ∈ s.mem, cell.1 < 0x10000 ∧ Readable s.config (BitVec.ofNat 16 cell.1)

/-! ### Frames -/

/-- From `s` to `t` no 8-bit register changes but those listed, no byte of memory but those at the listed addresses, and
neither the engine state nor the parameters. F, SP and PC are not covered: a statement says each of them. -/
structure Frame (s t : State) (regs : List Reg8) (stored : List Word) : Prop where
  regs : ∀ r, r ∉ regs → t.get8 r = s.get8 r
  memory : ∀ addr, addr ∉ stored → t.readByte addr = s.readByte addr
  engine : t.engine = s.engine
  config : t.config = s.config

/-- The frame of an instruction that also leaves F and SP alone and moves `pc` by its own operand bytes only. -/
structure PlainFrame (s t : State) (regs : List Reg8) (stored : List Word) (operands : Nat) : Prop
    extends Frame s t regs stored where
  flags : t.f = s.f
  sp : t.sp = s.sp
  pc : t.pc = s.pc + BitVec.ofNat 16 operands

/-- The four flags of `t` are as given, and bits 3:0 of F are those of `s` (R24, R27). -/
structure FlagsAre (s t : State) (z n h c : Prop) : Prop where
  zero : t.f.getLsbD 7 = true ↔ z
  subtract : t.f.getLsbD 6 = true ↔ n
  half : t.f.getLsbD 5 = true ↔ h
  carry : t.f.getLsbD 4 = true ↔ c
  low : ∀ k, k < 4 → t.f.getLsbD k = s.f.getLsbD k

/-- The Carry flag of a state: bit 4 of F (R24). -/
abbrev CarrySet (s : State) : Prop := s.f.getLsbD 4 = true

/-- The conditions of R98 on the bits of F. -/
abbrev CondHolds (s : State) : Option Cond → Prop
  | none => True
  | some .nz => s.f.getLsbD 7 = false
  | some .z => s.f.getLsbD 7 = true
  | some .nc => s.f.getLsbD 4 = false
  | some .c => s.f.getLsbD 4 = true

/-! ### Operands -/

/-- The operand codes of R96: 0 to 7 for B C D E H L (HL) A. -/
def regCode : Reg8 → Nat
  | .b => 0
  | .c => 1
  | .d => 2
  | .e => 3
  | .h => 4
  | .l => 5
  | .a => 7

/-- The operand code of a register or (HL) (R96). -/
def operandCode : Operand8 → Nat
  | .reg r => regCode r
  | .indHl => 6

/-- The pair codes of R97, for `rp` and `rp2` alike: the last is SP or AF. -/
def wideCode : Wide → Nat
  | .bc => 0
  | .de => 1
  | .hl => 2
  | .sp => 3

/-- The pair codes of PUSH and POP (R97). -/
def pairCode : Pair → Nat
  | .bc => 0
  | .de => 1
  | .hl => 2
  | .af => 3

/-- The condition codes of R98. -/
def condCode : Cond → Nat
  | .nz => 0
  | .z => 1
  | .nc => 2
  | .c => 3

/-- The address HL names (R21). -/
def hlAddress (s : State) : Word := s.h ++ s.l

/-- The value of an 8-bit operand; `none` when it is an unmapped byte (R10). -/
def operandValue (s : State) : Operand8 → Option Byte
  | .reg r => some (s.get8 r)
  | .indHl => s.readByte (hlAddress s)

/-- An 8-bit operand that can be written: any register, or (HL) in VRAM or IO (R10, R59). -/
abbrev OperandStorable (s : State) : Operand8 → Prop
  | .reg _ => True
  | .indHl => Storable (hlAddress s)

/-- The registers an operand writes. -/
def operandRegs : Operand8 → List Reg8
  | .reg r => [r]
  | .indHl => []

/-- The addresses an operand stores to. -/
def operandCells (s : State) : Operand8 → List Word
  | .reg _ => []
  | .indHl => [hlAddress s]

/-- The registers of a pair or of SP, which has none (R97). -/
def wideRegs : Wide → List Reg8
  | .bc => [.b, .c]
  | .de => [.d, .e]
  | .hl => [.h, .l]
  | .sp => []

/-- The 8-bit registers POP writes (R212, R213); F is not among them. -/
def pairRegs : Pair → List Reg8
  | .bc => [.b, .c]
  | .de => [.d, .e]
  | .hl => [.h, .l]
  | .af => [.a]

/-! ### Shapes of an instruction's effect -/

/-- The instruction loads register `r` from the byte at `addr`, and faults there when it is unmapped. -/
def LoadsByte (i : Instr) (r : Reg8) (addr : State → Word) (operands : Nat) : Prop :=
  ∀ s : State,
    (∀ v, s.readByte (addr s) = some v → ∃ t, exec i s = .next t ∧ t.get8 r = v ∧ PlainFrame s t [r] [] operands) ∧
    (s.readByte (addr s) = none → Halts i s operands (.unmappedAddressError (addr s)))

/-- The instruction stores `v` at `addr`, and faults there when it is unmapped or in ROM. -/
def StoresByte (i : Instr) (addr : State → Word) (v : State → Byte) (operands : Nat) : Prop :=
  ∀ s : State, s.Inv →
    (Storable (addr s) →
      ∃ t, exec i s = .next t ∧ t.readByte (addr s) = some (v s) ∧ PlainFrame s t [] [addr s] operands) ∧
    (¬ Storable (addr s) → Halts i s operands (.unmappedAddressError (addr s)))

/-- The instruction makes A the number `res`, writes the flags and nothing else. -/
def WritesA (i : Instr) (s : State) (operands res : Nat) (z n h c : Prop) : Prop :=
  ∃ t, exec i s = .next t ∧ t.a.toNat = res ∧ FlagsAre s t z n h c ∧ t.sp = s.sp ∧
    t.pc = s.pc + BitVec.ofNat 16 operands ∧ Frame s t [.a] []

/-- The instruction writes the flags and nothing else. -/
def WritesFlagsOnly (i : Instr) (s : State) (operands : Nat) (z n h c : Prop) : Prop :=
  ∃ t, exec i s = .next t ∧ FlagsAre s t z n h c ∧ t.sp = s.sp ∧
    t.pc = s.pc + BitVec.ofNat 16 operands ∧ Frame s t [] []

/-- The instruction modifies an operand: an operand of value `v` that can be written becomes `res v`, with Z from the result
and the other flags as given; with (HL) unmapped or in ROM it faults at HL and changes nothing. -/
def ModifiesOperand (i : Instr) (o : Operand8) (res : State → Byte → Nat) (n : Prop) (h c : State → Byte → Prop) : Prop :=
  ∀ s : State, s.Inv →
    (∀ v, operandValue s o = some v → OperandStorable s o →
      ∃ t w, exec i s = .next t ∧ operandValue t o = some w ∧ w.toNat = res s v ∧
        FlagsAre s t (res s v = 0) n (h s v) (c s v) ∧ t.sp = s.sp ∧ t.pc = s.pc ∧
        Frame s t (operandRegs o) (operandCells s o)) ∧
    (¬ OperandStorable s o → Halts i s 0 (.unmappedAddressError (hlAddress s)))

/-- The signed value of an offset byte (R7): `v` below 128, else `v - 256`. -/
def signedValue (e8 : Byte) : Int := if e8.toNat < 128 then (e8.toNat : Int) else (e8.toNat : Int) - 256

/-- The instruction pushes the word `v` (R210): SP goes down by two, the low byte of `v` lies at the new SP and the high byte
after it, `pc` becomes `target`, and nothing else changes. -/
def Pushes (i : Instr) (s : State) (v target : Word) : Prop :=
  ∃ t, exec i s = .next t ∧ t.sp.toNat = s.sp.toNat - 2 ∧
    t.readByte (s.sp - 2) = some (v.extractLsb' 0 8) ∧ t.readByte (s.sp - 1) = some (v.extractLsb' 8 8) ∧
    t.pc = target ∧ t.f = s.f ∧ Frame s t [] [s.sp - 2, s.sp - 1]

/-- The push faults (R210, R75): at the new SP when that is no byte of VRAM or IO, else at the byte after it, with the low
byte already stored. SP is down by two, `pc` past the operands, and no register and no other byte has changed. -/
def PushFaults (i : Instr) (s : State) (v : Word) (operands : Nat) : Prop :=
  ∃ t, exec i s = .next t ∧ t.sp = s.sp - 2 ∧ t.pc = s.pc + BitVec.ofNat 16 operands ∧ t.f = s.f ∧
    (∀ r, t.get8 r = s.get8 r) ∧ t.config = s.config ∧
    (¬ Storable (s.sp - 2) → t.engine = .haltedOnError (.unmappedAddressError (s.sp - 2)) ∧
      ∀ addr, t.readByte addr = s.readByte addr) ∧
    (Storable (s.sp - 2) → t.engine = .haltedOnError (.unmappedAddressError (s.sp - 1)) ∧
      t.readByte (s.sp - 2) = some (v.extractLsb' 0 8) ∧
      ∀ addr, addr ≠ s.sp - 2 → t.readByte addr = s.readByte addr)

/-! ### The spec's summary tables over instructions -/

/-- The 55 absent plain opcodes of R108. -/
def absentPlain : List Nat :=
  [0x00, 0x08, 0x09, 0x19, 0x29, 0x39, 0x10, 0x27, 0x2F, 0x37, 0x3F, 0x76] ++
  [0x88, 0x89, 0x8A, 0x8B, 0x8C, 0x8D, 0x8E, 0x8F, 0xCE] ++
  [0x98, 0x99, 0x9A, 0x9B, 0x9C, 0x9D, 0x9E, 0x9F, 0xDE] ++
  [0xC7, 0xCF, 0xD7, 0xDF, 0xE7, 0xEF, 0xF7, 0xFF, 0xD9, 0xE8, 0xF8, 0xF9, 0xF3, 0xFB] ++
  [0xD3, 0xDB, 0xDD, 0xE3, 0xE4, 0xEB, 0xEC, 0xED, 0xF4, 0xFC, 0xFD]

/-- The second bytes of the 136 absent prefixed keys of R110: 0x30 to 0x37 and 0x80 to 0xFF. -/
def AbsentSecond (second : Byte) : Prop :=
  (0x30 ≤ second.toNat ∧ second.toNat ≤ 0x37) ∨ 0x80 ≤ second.toNat

/-- The 40 plain opcodes of the decided rows of U9: the accumulator rotates, then ADD, SUB, AND and OR with a register or (HL)
and with an immediate. -/
abbrev DecidedPlain (op : Byte) : Prop :=
  op.toNat ∈ [0x07, 0x0F, 0x17, 0x1F] ∨
  (0x80 ≤ op.toNat ∧ op.toNat ≤ 0x87) ∨ (0x90 ≤ op.toNat ∧ op.toNat ≤ 0x97) ∨
  (0xA0 ≤ op.toNat ∧ op.toNat ≤ 0xA7) ∨ (0xB0 ≤ op.toNat ∧ op.toNat ≤ 0xB7) ∨
  op.toNat ∈ [0xC6, 0xD6, 0xE6, 0xF6]

/-- The second bytes of the 24 decided prefixed rows of U9: SLA and SRA at 0x20 to 0x2F, SRL at 0x38 to 0x3F. -/
abbrev DecidedSecond (second : Byte) : Prop :=
  (0x20 ≤ second.toNat ∧ second.toNat ≤ 0x2F) ∨ (0x38 ≤ second.toNat ∧ second.toNat ≤ 0x3F)

/-- The instructions R31 lists as writers of SP: LD SP,d16, INC SP, DEC SP, PUSH, POP, CALL and RET. -/
def writesSp : Instr → Bool
  | .ldSpD16 _ | .incSp | .decSp | .retNz | .popBc | .callNzA16 _ | .pushBc | .retZ | .ret | .callZA16 _
  | .callA16 _ | .retNc | .popDe | .callNcA16 _ | .pushDe | .retC | .callCA16 _ | .popHl | .pushHl | .popAf
  | .pushAf => true
  | .ldBcD16 _ | .ldIndBcA | .incBc | .incB | .decB | .ldBD8 _ | .rlcaAcc | .ldAIndBc | .decBc | .incC | .decC
  | .ldCD8 _ | .rrcaAcc | .ldDeD16 _ | .ldIndDeA | .incDe | .incD | .decD | .ldDD8 _ | .rlaAcc | .jrE8 _
  | .ldAIndDe | .decDe | .incE | .decE | .ldED8 _ | .rraAcc | .jrNzE8 _ | .ldHlD16 _ | .ldIndHlIncA | .incHl
  | .incH | .decH | .ldHD8 _ | .jrZE8 _ | .ldAIndHlInc | .decHl | .incL | .decL | .ldLD8 _ | .jrNcE8 _
  | .ldIndHlDecA | .incIndHl | .decIndHl | .ldIndHlD8 _ | .jrCE8 _ | .ldAIndHlDec | .incA | .decA | .ldAD8 _
  | .ldBB | .ldBC | .ldBD | .ldBE | .ldBH | .ldBL | .ldBIndHl | .ldBA | .ldCB | .ldCC | .ldCD | .ldCE | .ldCH
  | .ldCL | .ldCIndHl | .ldCA | .ldDB | .ldDC | .ldDD | .ldDE | .ldDH | .ldDL | .ldDIndHl | .ldDA | .ldEB
  | .ldEC | .ldED | .ldEE | .ldEH | .ldEL | .ldEIndHl | .ldEA | .ldHB | .ldHC | .ldHD | .ldHE | .ldHH | .ldHL
  | .ldHIndHl | .ldHA | .ldLB | .ldLC | .ldLD | .ldLE | .ldLH | .ldLL | .ldLIndHl | .ldLA | .ldIndHlB
  | .ldIndHlC | .ldIndHlD | .ldIndHlE | .ldIndHlH | .ldIndHlL | .ldIndHlA | .ldAB | .ldAC | .ldAD | .ldAE
  | .ldAH | .ldAL | .ldAIndHl | .ldAA | .addAB | .addAC | .addAD | .addAE | .addAH | .addAL | .addAIndHl
  | .addAA | .subB | .subC | .subD | .subE | .subH | .subL | .subIndHl | .subA | .andB | .andC | .andD | .andE
  | .andH | .andL | .andIndHl | .andA | .xorB | .xorC | .xorD | .xorE | .xorH | .xorL | .xorIndHl | .xorA | .orB
  | .orC | .orD | .orE | .orH | .orL | .orIndHl | .orA | .cpB | .cpC | .cpD | .cpE | .cpH | .cpL | .cpIndHl
  | .cpA | .jpNzA16 _ | .jpA16 _ | .addAD8 _ | .jpZA16 _ | .jpNcA16 _ | .subD8 _ | .jpCA16 _ | .ldhIndA8A _
  | .ldIndCA | .andD8 _ | .jpHl | .ldIndA16A _ | .xorD8 _ | .ldhAIndA8 _ | .ldAIndC | .orD8 _ | .ldAIndA16 _
  | .cpD8 _ | .rlcB | .rlcC | .rlcD | .rlcE | .rlcH | .rlcL | .rlcIndHl | .rlcA | .rrcB | .rrcC | .rrcD | .rrcE
  | .rrcH | .rrcL | .rrcIndHl | .rrcA | .rlB | .rlC | .rlD | .rlE | .rlH | .rlL | .rlIndHl | .rlA | .rrB | .rrC
  | .rrD | .rrE | .rrH | .rrL | .rrIndHl | .rrA | .slaB | .slaC | .slaD | .slaE | .slaH | .slaL | .slaIndHl
  | .slaA | .sraB | .sraC | .sraD | .sraE | .sraH | .sraL | .sraIndHl | .sraA | .srlB | .srlC | .srlD | .srlE
  | .srlH | .srlL | .srlIndHl | .srlA | .bit0B | .bit0C | .bit0D | .bit0E | .bit0H | .bit0L | .bit0IndHl
  | .bit0A | .bit1B | .bit1C | .bit1D | .bit1E | .bit1H | .bit1L | .bit1IndHl | .bit1A | .bit2B | .bit2C
  | .bit2D | .bit2E | .bit2H | .bit2L | .bit2IndHl | .bit2A | .bit3B | .bit3C | .bit3D | .bit3E | .bit3H
  | .bit3L | .bit3IndHl | .bit3A | .bit4B | .bit4C | .bit4D | .bit4E | .bit4H | .bit4L | .bit4IndHl | .bit4A
  | .bit5B | .bit5C | .bit5D | .bit5E | .bit5H | .bit5L | .bit5IndHl | .bit5A | .bit6B | .bit6C | .bit6D
  | .bit6E | .bit6H | .bit6L | .bit6IndHl | .bit6A | .bit7B | .bit7C | .bit7D | .bit7E | .bit7H | .bit7L
  | .bit7IndHl | .bit7A => false

/-- The instructions the summary R26 gives a flag effect; every other one writes no flag. -/
def writesFlags : Instr → Bool
  | .incB | .decB | .rlcaAcc | .incC | .decC | .rrcaAcc | .incD | .decD | .rlaAcc | .incE | .decE | .rraAcc
  | .incH | .decH | .incL | .decL | .incIndHl | .decIndHl | .incA | .decA | .addAB | .addAC | .addAD | .addAE
  | .addAH | .addAL | .addAIndHl | .addAA | .subB | .subC | .subD | .subE | .subH | .subL | .subIndHl | .subA
  | .andB | .andC | .andD | .andE | .andH | .andL | .andIndHl | .andA | .xorB | .xorC | .xorD | .xorE | .xorH
  | .xorL | .xorIndHl | .xorA | .orB | .orC | .orD | .orE | .orH | .orL | .orIndHl | .orA | .cpB | .cpC | .cpD
  | .cpE | .cpH | .cpL | .cpIndHl | .cpA | .addAD8 _ | .subD8 _ | .andD8 _ | .xorD8 _ | .popAf | .orD8 _
  | .cpD8 _ | .rlcB | .rlcC | .rlcD | .rlcE | .rlcH | .rlcL | .rlcIndHl | .rlcA | .rrcB | .rrcC | .rrcD | .rrcE
  | .rrcH | .rrcL | .rrcIndHl | .rrcA | .rlB | .rlC | .rlD | .rlE | .rlH | .rlL | .rlIndHl | .rlA | .rrB | .rrC
  | .rrD | .rrE | .rrH | .rrL | .rrIndHl | .rrA | .slaB | .slaC | .slaD | .slaE | .slaH | .slaL | .slaIndHl
  | .slaA | .sraB | .sraC | .sraD | .sraE | .sraH | .sraL | .sraIndHl | .sraA | .srlB | .srlC | .srlD | .srlE
  | .srlH | .srlL | .srlIndHl | .srlA | .bit0B | .bit0C | .bit0D | .bit0E | .bit0H | .bit0L | .bit0IndHl
  | .bit0A | .bit1B | .bit1C | .bit1D | .bit1E | .bit1H | .bit1L | .bit1IndHl | .bit1A | .bit2B | .bit2C
  | .bit2D | .bit2E | .bit2H | .bit2L | .bit2IndHl | .bit2A | .bit3B | .bit3C | .bit3D | .bit3E | .bit3H
  | .bit3L | .bit3IndHl | .bit3A | .bit4B | .bit4C | .bit4D | .bit4E | .bit4H | .bit4L | .bit4IndHl | .bit4A
  | .bit5B | .bit5C | .bit5D | .bit5E | .bit5H | .bit5L | .bit5IndHl | .bit5A | .bit6B | .bit6C | .bit6D
  | .bit6E | .bit6H | .bit6L | .bit6IndHl | .bit6A | .bit7B | .bit7C | .bit7D | .bit7E | .bit7H | .bit7L
  | .bit7IndHl | .bit7A => true
  | .ldBcD16 _ | .ldIndBcA | .incBc | .ldBD8 _ | .ldAIndBc | .decBc | .ldCD8 _ | .ldDeD16 _ | .ldIndDeA | .incDe
  | .ldDD8 _ | .jrE8 _ | .ldAIndDe | .decDe | .ldED8 _ | .jrNzE8 _ | .ldHlD16 _ | .ldIndHlIncA | .incHl
  | .ldHD8 _ | .jrZE8 _ | .ldAIndHlInc | .decHl | .ldLD8 _ | .jrNcE8 _ | .ldSpD16 _ | .ldIndHlDecA | .incSp
  | .ldIndHlD8 _ | .jrCE8 _ | .ldAIndHlDec | .decSp | .ldAD8 _ | .ldBB | .ldBC | .ldBD | .ldBE | .ldBH | .ldBL
  | .ldBIndHl | .ldBA | .ldCB | .ldCC | .ldCD | .ldCE | .ldCH | .ldCL | .ldCIndHl | .ldCA | .ldDB | .ldDC
  | .ldDD | .ldDE | .ldDH | .ldDL | .ldDIndHl | .ldDA | .ldEB | .ldEC | .ldED | .ldEE | .ldEH | .ldEL
  | .ldEIndHl | .ldEA | .ldHB | .ldHC | .ldHD | .ldHE | .ldHH | .ldHL | .ldHIndHl | .ldHA | .ldLB | .ldLC
  | .ldLD | .ldLE | .ldLH | .ldLL | .ldLIndHl | .ldLA | .ldIndHlB | .ldIndHlC | .ldIndHlD | .ldIndHlE
  | .ldIndHlH | .ldIndHlL | .ldIndHlA | .ldAB | .ldAC | .ldAD | .ldAE | .ldAH | .ldAL | .ldAIndHl | .ldAA
  | .retNz | .popBc | .jpNzA16 _ | .jpA16 _ | .callNzA16 _ | .pushBc | .retZ | .ret | .jpZA16 _ | .callZA16 _
  | .callA16 _ | .retNc | .popDe | .jpNcA16 _ | .callNcA16 _ | .pushDe | .retC | .jpCA16 _ | .callCA16 _
  | .ldhIndA8A _ | .popHl | .ldIndCA | .pushHl | .jpHl | .ldIndA16A _ | .ldhAIndA8 _ | .ldAIndC | .pushAf
  | .ldAIndA16 _ => false

/-- JR, JP, CALL and RET in all their forms: the rows of R29 whose next `pc` is not simply the next address. -/
def transfersControl : Instr → Bool
  | .jrE8 _ | .jrNzE8 _ | .jrZE8 _ | .jrNcE8 _ | .jrCE8 _ | .retNz | .jpNzA16 _ | .jpA16 _ | .callNzA16 _
  | .retZ | .ret | .jpZA16 _ | .callZA16 _ | .callA16 _ | .retNc | .jpNcA16 _ | .callNcA16 _ | .retC | .jpCA16 _
  | .callCA16 _ | .jpHl => true
  | .ldBcD16 _ | .ldIndBcA | .incBc | .incB | .decB | .ldBD8 _ | .rlcaAcc | .ldAIndBc | .decBc | .incC | .decC
  | .ldCD8 _ | .rrcaAcc | .ldDeD16 _ | .ldIndDeA | .incDe | .incD | .decD | .ldDD8 _ | .rlaAcc | .ldAIndDe
  | .decDe | .incE | .decE | .ldED8 _ | .rraAcc | .ldHlD16 _ | .ldIndHlIncA | .incHl | .incH | .decH | .ldHD8 _
  | .ldAIndHlInc | .decHl | .incL | .decL | .ldLD8 _ | .ldSpD16 _ | .ldIndHlDecA | .incSp | .incIndHl
  | .decIndHl | .ldIndHlD8 _ | .ldAIndHlDec | .decSp | .incA | .decA | .ldAD8 _ | .ldBB | .ldBC | .ldBD | .ldBE
  | .ldBH | .ldBL | .ldBIndHl | .ldBA | .ldCB | .ldCC | .ldCD | .ldCE | .ldCH | .ldCL | .ldCIndHl | .ldCA
  | .ldDB | .ldDC | .ldDD | .ldDE | .ldDH | .ldDL | .ldDIndHl | .ldDA | .ldEB | .ldEC | .ldED | .ldEE | .ldEH
  | .ldEL | .ldEIndHl | .ldEA | .ldHB | .ldHC | .ldHD | .ldHE | .ldHH | .ldHL | .ldHIndHl | .ldHA | .ldLB
  | .ldLC | .ldLD | .ldLE | .ldLH | .ldLL | .ldLIndHl | .ldLA | .ldIndHlB | .ldIndHlC | .ldIndHlD | .ldIndHlE
  | .ldIndHlH | .ldIndHlL | .ldIndHlA | .ldAB | .ldAC | .ldAD | .ldAE | .ldAH | .ldAL | .ldAIndHl | .ldAA
  | .addAB | .addAC | .addAD | .addAE | .addAH | .addAL | .addAIndHl | .addAA | .subB | .subC | .subD | .subE
  | .subH | .subL | .subIndHl | .subA | .andB | .andC | .andD | .andE | .andH | .andL | .andIndHl | .andA
  | .xorB | .xorC | .xorD | .xorE | .xorH | .xorL | .xorIndHl | .xorA | .orB | .orC | .orD | .orE | .orH | .orL
  | .orIndHl | .orA | .cpB | .cpC | .cpD | .cpE | .cpH | .cpL | .cpIndHl | .cpA | .popBc | .pushBc | .addAD8 _
  | .popDe | .pushDe | .subD8 _ | .ldhIndA8A _ | .popHl | .ldIndCA | .pushHl | .andD8 _ | .ldIndA16A _
  | .xorD8 _ | .ldhAIndA8 _ | .popAf | .ldAIndC | .pushAf | .orD8 _ | .ldAIndA16 _ | .cpD8 _ | .rlcB | .rlcC
  | .rlcD | .rlcE | .rlcH | .rlcL | .rlcIndHl | .rlcA | .rrcB | .rrcC | .rrcD | .rrcE | .rrcH | .rrcL
  | .rrcIndHl | .rrcA | .rlB | .rlC | .rlD | .rlE | .rlH | .rlL | .rlIndHl | .rlA | .rrB | .rrC | .rrD | .rrE
  | .rrH | .rrL | .rrIndHl | .rrA | .slaB | .slaC | .slaD | .slaE | .slaH | .slaL | .slaIndHl | .slaA | .sraB
  | .sraC | .sraD | .sraE | .sraH | .sraL | .sraIndHl | .sraA | .srlB | .srlC | .srlD | .srlE | .srlH | .srlL
  | .srlIndHl | .srlA | .bit0B | .bit0C | .bit0D | .bit0E | .bit0H | .bit0L | .bit0IndHl | .bit0A | .bit1B
  | .bit1C | .bit1D | .bit1E | .bit1H | .bit1L | .bit1IndHl | .bit1A | .bit2B | .bit2C | .bit2D | .bit2E
  | .bit2H | .bit2L | .bit2IndHl | .bit2A | .bit3B | .bit3C | .bit3D | .bit3E | .bit3H | .bit3L | .bit3IndHl
  | .bit3A | .bit4B | .bit4C | .bit4D | .bit4E | .bit4H | .bit4L | .bit4IndHl | .bit4A | .bit5B | .bit5C
  | .bit5D | .bit5E | .bit5H | .bit5L | .bit5IndHl | .bit5A | .bit6B | .bit6C | .bit6D | .bit6E | .bit6H
  | .bit6L | .bit6IndHl | .bit6A | .bit7B | .bit7C | .bit7D | .bit7E | .bit7H | .bit7L | .bit7IndHl | .bit7A => false

end Sys2Proof.Machine
end

