-- ==== Sys2Proof/Certificates/Slice0/Obligations.lean ====
section
/-! DEFINITION. The statements for the provers. Each docstring says which rule of spec/ it formalises. Where a statement says
what a halted state holds, it is what R246 and R248 define; U7 warns not to build on it. -/

open Sys2Proof Sys2Proof.Machine

/-! ### Encoding and decoding -/

/-- Decoding the bytes of an instruction that the machine has gives it back with every operand, whatever follows (R90 to
R93, R103). -/
def Obligations.DecodeInvertsEncode : Prop :=
  ∀ (cfg : Config) (i : Instr) (rest : List Byte), i.wellFormed cfg = true →
    decode cfg (encode i ++ rest) = .instr i rest

/-- Whatever decodes is the encoding of an instruction the machine has: each instruction has one encoding (R92, R111). -/
def Obligations.DecodedBytesAreTheEncoding : Prop :=
  ∀ (cfg : Config) (bytes rest : List Byte) (i : Instr), decode cfg bytes = .instr i rest →
    i.wellFormed cfg = true ∧ bytes = encode i ++ rest

/-- Words of the spec's table decode to their rows (R104 to R109): one or more of every family. -/
def Obligations.TableWordsDecode : Prop :=
  decodeTableWord 8 0x21 = some (.ldHlD16 0) ∧ decodeTableWord 8 0x78 = some .ldAB ∧
  decodeTableWord 8 0x2A = some .ldAIndHlInc ∧ decodeTableWord 8 0x36 = some (.ldIndHlD8 0) ∧
  decodeTableWord 8 0xE0 = some (.ldhIndA8A 0) ∧ decodeTableWord 8 0x34 = some .incIndHl ∧
  decodeTableWord 8 0x96 = some .subIndHl ∧ decodeTableWord 8 0x3B = some .decSp ∧
  decodeTableWord 8 0xAF = some .xorA ∧ decodeTableWord 8 0x38 = some (.jrCE8 0) ∧
  decodeTableWord 8 0xE9 = some .jpHl ∧ decodeTableWord 8 0xC4 = some (.callNzA16 0) ∧
  decodeTableWord 8 0xD0 = some .retNc ∧ decodeTableWord 8 0xF5 = some .pushAf ∧
  decodeTableWord 8 0x1F = some .rraAcc ∧ decodeTableWord 16 0xCB7C = some .bit7H ∧
  decodeTableWord 16 0xCB2E = some .sraIndHl ∧ decodeTableWord 8 0x00 = none ∧ decodeTableWord 8 0xCB = some .rlcB ∧
  decodeTableWord 16 0xCB37 = none

/-- R108, R110, R243: a fetched key with no row is DecodeError with the key and the address of the first opcode byte; `pc`
is then past the opcode bytes and nothing else has changed. Every other key has a row (when the decided rows are
present, as the spec's own table has them). -/
def Obligations.AbsentKeysRaiseDecodeError : Prop :=
  (∀ (s : State) (op : Byte), s.Running → s.readByte s.pc = some op → op.toNat ∈ absentPlain →
    step s = .next { s with
      pc := s.pc + 1, engine := .haltedOnError (.decodeError (BitVec.setWidth 16 op) s.pc) }) ∧
  (∀ (s : State) (second : Byte), s.Running → s.readByte s.pc = some 0xCB → s.readByte (s.pc + 1) = some second →
    AbsentSecond second →
    step s = .next { s with
      pc := s.pc + 2, engine := .haltedOnError (.decodeError (0xCB00 ||| BitVec.setWidth 16 second) s.pc) }) ∧
  (∀ (cfg : Config) (op : Byte), cfg.decidedRowsPresent = true → op ≠ 0xCB → op.toNat ∉ absentPlain →
    (lookup cfg (BitVec.setWidth 16 op)).isSome = true) ∧
  (∀ (cfg : Config) (second : Byte), cfg.decidedRowsPresent = true → ¬ AbsentSecond second →
    (lookup cfg (0xCB00 ||| BitVec.setWidth 16 second)).isSome = true)

/-! ### The sequencer -/

/-- R100: when the bytes at `pc` decode to an instruction, the step is the instruction's execution with `pc` moved past the
opcode bytes (the instruction itself moves past its operands, R94). -/
def Obligations.StepRunsTheDecodedInstruction : Prop :=
  ∀ (s : State) (i : Instr) (rest : List Byte), s.Running → decode s.config s.window = .instr i rest →
    step s = exec i { s with pc := s.pc + BitVec.ofNat 16 i.opcodeLength }

/-- R242, R250: when the readable bytes at `pc` end before the instruction does, the step takes UnmappedAddressError at the
first byte that is missing: opcode, then second byte, then the immediate low byte first. -/
def Obligations.TruncatedInstructionFaultsAtTheMissingByte : Prop :=
  ∀ s : State, s.Running → decode s.config s.window = .truncated →
    ∃ t, step s = .next t ∧
      t.engine = .haltedOnError (.unmappedAddressError (s.pc + BitVec.ofNat 16 s.window.length))

/-- In engine state running every step answers a next state: no instruction is refused and none stops the run without taking
one of the spec's faults (R240, R245). -/
def Obligations.RunningStepAnswersNext : Prop :=
  ∀ s : State, s.Running → ∃ t, step s = .next t ∧ (t.Running ∨ ∃ r, t.engine = .haltedOnError r)

/-- R240, R249: nothing runs after a fault. The run stops with the report, after any number of steps and of resets (R37).
That the stop is the outcome `fault` is the model's choice, log entry 1. -/
def Obligations.HaltedEngineIsTerminal : Prop :=
  ∀ (s : State) (r : Fault), s.engine = .haltedOnError r → ∀ k : Nat,
    core.run (k + 1) s = .fault r ∧ core.run (k + 1) s.assertReset = .fault r

/-- R241, R244, R245: an instruction raises UnmappedAddressError, at an address that cannot be stored to, or
InvalidJumpError, and that from a JR only; DecodeError never. -/
def Obligations.InstructionsRaiseOnlyMemoryAndJumpErrors : Prop :=
  ∀ (i : Instr) (s t : State), s.Running → s.config.wf = true → exec i s = .next t →
    t.Running ∨
    (∃ addr, t.engine = .haltedOnError (.unmappedAddressError addr) ∧ ¬ Storable addr) ∨
    (∃ cc e8 offset, i = Instr.jr cc e8 ∧ t.engine = .haltedOnError (.invalidJumpError (s.pc + 1) offset))

/-- 45_jumps.md, a corner case of JR that the spec derives from R51: the upper bound of the jump range cannot be crossed, so every InvalidJumpError a step takes is below
address 0. -/
def Obligations.InvalidJumpsAreBelowZero : Prop :=
  ∀ (s t : State) (p : Word) (offset : Int), s.Running → s.config.wf = true → step s = .next t →
    t.engine = .haltedOnError (.invalidJumpError p offset) → p.toNat = s.pc.toNat + 2 ∧ (p.toNat : Int) + offset < 0

/-- 10_state.md section 3, which the spec derives from R51: `pc` never wraps: after an instruction that is not a control transfer it is the fetch address plus the length, and
at most 0xFF80. -/
def Obligations.SequentialPcNeverWraps : Prop :=
  ∀ (s t : State) (i : Instr) (rest : List Byte), s.Running → s.config.wf = true →
    decode s.config s.window = .instr i rest → transfersControl i = false → step s = .next t → t.Running →
      t.pc.toNat = s.pc.toNat + i.length ∧ t.pc.toNat ≤ 0xFF80

/-- 10_state.md section 3, which the spec derives from R100: an instruction that is not a control transfer moves `pc` past its own operand bytes and no further. -/
def Obligations.SequentialInstructionsMovePcPastOperands : Prop :=
  ∀ (i : Instr) (s t : State), transfersControl i = false → exec i s = .next t → t.Running →
    t.pc = s.pc + BitVec.ofNat 16 i.operandLength

/-! ### Invariants and whole-machine rules -/

/-- Every step keeps the invariant: a legal `ROM_SIZE`, bits 3:0 of F zero (R27), the memory list canonical and inside the
three regions (R53). -/
def Obligations.StepKeepsTheInvariant : Prop :=
  ∀ s t : State, s.Inv → step s = .next t → t.Inv

/-- R37: the state after reset. Registers and flags are zero, the engine runs, and the invariant holds; that an address of
VRAM or IO reads 0 is the default of D9, log entry 4, and the value of `ROM_SIZE` is log entry 3. -/
def Obligations.ResetState : Prop :=
  State.reset.Inv ∧ State.reset.Running ∧ (∀ r, State.reset.get8 r = 0) ∧ State.reset.f = 0 ∧ State.reset.sp = 0 ∧
    State.reset.pc = 0 ∧ ∀ addr, Readable launchConfig addr → State.reset.readByte addr = some 0

/-- R35, R54: no step changes a byte of ROM or a parameter. -/
def Obligations.StepKeepsRomAndParameters : Prop :=
  ∀ s t : State, step s = .next t → t.config = s.config ∧
    ∀ addr : Word, addr.toNat < s.config.romSize → t.readByte addr = s.readByte addr

/-- R37, R54, R55, R56, R280: construction fails exactly for an image larger than ROM; otherwise ROM is the image and then
zero fill, VRAM and IO are their initial contents and then zero (D9, log entry 4), every register is zero and the
engine runs. -/
def Obligations.ConstructionBuildsTheEngine : Prop :=
  ∀ (cfg : Config) (rom vram io : List Byte), cfg.wf = true →
    (cfg.romSize < rom.length → construct cfg rom vram io = .error .romSizeError) ∧
    (rom.length ≤ cfg.romSize → ∃ s, construct cfg rom vram io = .ok s ∧ s.Inv ∧ s.Running ∧ s.config = cfg ∧
      (∀ r, s.get8 r = 0) ∧ s.f = 0 ∧ s.sp = 0 ∧ s.pc = 0 ∧
      (∀ addr : Word, addr.toNat < cfg.romSize → s.readByte addr = some (rom.getD addr.toNat 0)) ∧
      (∀ addr : Word, 0x8000 ≤ addr.toNat → addr.toNat ≤ 0x9FFF →
        s.readByte addr = some (vram.getD (addr.toNat - 0x8000) 0)) ∧
      (∀ addr : Word, 0xFF00 ≤ addr.toNat → addr.toNat ≤ 0xFF7F →
        s.readByte addr = some (io.getD (addr.toNat - 0xFF00) 0)))

/-- R280, R281: the reset input zeroes the ten registers and changes nothing else, so the next cycle of a running engine
fetches the first ROM byte. -/
def Obligations.ResetInputRestartsAtAddressZero : Prop :=
  ∀ s : State, s.Inv →
    (∀ r, s.assertReset.get8 r = 0) ∧ s.assertReset.f = 0 ∧ s.assertReset.sp = 0 ∧ s.assertReset.pc = 0 ∧
    s.assertReset.engine = s.engine ∧ s.assertReset.config = s.config ∧
    (∀ addr, s.assertReset.readByte addr = s.readByte addr) ∧
    ∃ op, s.readByte 0 = some op ∧ s.assertReset.window.head? = some op

/-- R31: SP is written by LD SP,d16, INC SP, DEC SP, PUSH, POP, CALL and RET only. -/
def Obligations.OnlyListedInstructionsWriteSp : Prop :=
  ∀ (i : Instr) (s t : State), writesSp i = false → exec i s = .next t → t.sp = s.sp

/-- R26: an instruction outside the table writes no bit of F. -/
def Obligations.OnlyListedInstructionsWriteFlags : Prop :=
  ∀ (i : Instr) (s t : State), writesFlags i = false → exec i s = .next t → t.f = s.f

/-! ### Memory and registers -/

/-- R53: the addresses that do not read are exactly the unmapped ranges, and those that take no write are these and ROM. -/
def Obligations.UnmappedRangesTakeNoAccess : Prop :=
  ∀ (s : State) (addr : Word) (v : Byte), s.config.wf = true →
    (s.readByte addr = none ↔
      (s.config.romSize ≤ addr.toNat ∧ addr.toNat ≤ 0x7FFF) ∨ (0xA000 ≤ addr.toNat ∧ addr.toNat ≤ 0xFEFF) ∨
      0xFF80 ≤ addr.toNat) ∧
    (s.writeByte addr v = none ↔ addr.toNat < s.config.romSize ∨
      (s.config.romSize ≤ addr.toNat ∧ addr.toNat ≤ 0x7FFF) ∨ (0xA000 ≤ addr.toNat ∧ addr.toNat ≤ 0xFEFF) ∨
      0xFF80 ≤ addr.toNat)

/-- R59: a byte write stores into VRAM or IO only; the byte reads back, nothing else changes, and the instruction goes on; a
write to ROM or to an unmapped address raises UnmappedAddressError at that address, and nothing has changed. -/
def Obligations.ByteWritesStoreInVramAndIoOnly : Prop :=
  ∀ (s : State) (addr : Word) (v : Byte) (rest : State → State), s.Inv →
    (Storable addr → ∃ t, s.writeByte addr v = some t ∧ writeByteThen addr v s rest = rest t ∧
      t.readByte addr = some v ∧ PlainFrame s t [] [addr] 0) ∧
    (¬ Storable addr → writeByteThen addr v s rest = { s with
      engine := .haltedOnError (.unmappedAddressError addr) })

/-- R22: after `x[rr] <- v` the pair reads `v` (AF reads `v & 0xFFF0`), and no register outside the pair changes. -/
def Obligations.PairWritesReadBack : Prop :=
  ∀ (s : State) (p : Pair) (v : Word),
    (p ≠ .af → (s.setPair p v).getPair p = v ∧ PlainFrame s (s.setPair p v) (pairRegs p) [] 0) ∧
    (s.setPair .af v).getPair .af = v &&& 0xFFF0 ∧ (s.setPair .af v).sp = s.sp ∧ (s.setPair .af v).pc = s.pc ∧
    Frame s (s.setPair .af v) [.a] []

/-! ### Loads -/

/-- R120: `LD r,r'`. -/
def Obligations.LoadRegisterFromRegister : Prop :=
  ∀ r r' : Reg8, encode (Instr.ldReg r r') = [BitVec.ofNat 8 (0x40 + 8 * regCode r + regCode r')] ∧
    ∀ s : State, ∃ t, exec (Instr.ldReg r r') s = .next t ∧ t.get8 r = s.get8 r' ∧ PlainFrame s t [r] [] 0

/-- R121: `LD r,(HL)`. -/
def Obligations.LoadRegisterFromHl : Prop :=
  ∀ r : Reg8, encode (Instr.ldFromHl r) = [BitVec.ofNat 8 (0x46 + 8 * regCode r)] ∧
    LoadsByte (Instr.ldFromHl r) r hlAddress 0

/-- R122: `LD r,d8`. -/
def Obligations.LoadRegisterImmediate : Prop :=
  ∀ (r : Reg8) (v : Byte), encode (Instr.ldImm8 (.reg r) v) = [BitVec.ofNat 8 (0x06 + 8 * regCode r), v] ∧
    (∀ s : State, ∃ t, exec (Instr.ldImm8 (.reg r) v) s = .next t ∧ t.get8 r = v ∧ PlainFrame s t [r] [] 1) ∧
    MissingOperandHalts (Instr.ldImm8 (.reg r) v)

/-- R123: `LD (HL),d8`. -/
def Obligations.StoreImmediateAtHl : Prop :=
  ∀ v : Byte, encode (Instr.ldIndHlD8 v) = [0x36, v] ∧ StoresByte (.ldIndHlD8 v) hlAddress (fun _ => v) 1 ∧
    MissingOperandHalts (.ldIndHlD8 v)

/-- R124: `LD rr,d16`; any value may be loaded into SP. -/
def Obligations.LoadWideImmediate : Prop :=
  ∀ (w : Wide) (v : Word),
    encode (Instr.ldWide w v) = [BitVec.ofNat 8 (0x01 + 16 * wideCode w), v.extractLsb' 0 8, v.extractLsb' 8 8] ∧
    (∀ s : State, ∃ t, exec (Instr.ldWide w v) s = .next t ∧ t.getWide w = v ∧ t.f = s.f ∧ (w ≠ .sp → t.sp = s.sp) ∧
      t.pc = s.pc + 2 ∧ Frame s t (wideRegs w) []) ∧
    MissingOperandHalts (Instr.ldWide w v)

/-- R125: `LD A,(BC)` and `LD A,(DE)`. -/
def Obligations.LoadAThroughPair : Prop :=
  encode .ldAIndBc = [0x0A] ∧ LoadsByte .ldAIndBc .a (fun s => s.b ++ s.c) 0 ∧
  encode .ldAIndDe = [0x1A] ∧ LoadsByte .ldAIndDe .a (fun s => s.d ++ s.e) 0

/-- R126: `LD (BC),A` and `LD (DE),A`. -/
def Obligations.StoreAThroughPair : Prop :=
  encode .ldIndBcA = [0x02] ∧ StoresByte .ldIndBcA (fun s => s.b ++ s.c) (fun s => s.a) 0 ∧
  encode .ldIndDeA = [0x12] ∧ StoresByte .ldIndDeA (fun s => s.d ++ s.e) (fun s => s.a) 0

/-- R127: `LD (HL),r`. -/
def Obligations.StoreRegisterAtHl : Prop :=
  ∀ r : Reg8, encode (Instr.ldToHl r) = [BitVec.ofNat 8 (0x70 + regCode r)] ∧
    StoresByte (Instr.ldToHl r) hlAddress (fun s => s.get8 r) 0

/-- R129, R131: `LD A,(HL+)` and `LD A,(HL-)`: the transfer, then HL moves by one modulo 65536; on a fault neither changes. -/
def Obligations.LoadAAndMoveHl : Prop :=
  encode .ldAIndHlInc = [0x2A] ∧ encode .ldAIndHlDec = [0x3A] ∧
  ∀ s : State,
    (∀ v, s.readByte (hlAddress s) = some v →
      (∃ t, exec .ldAIndHlInc s = .next t ∧ t.a = v ∧ (hlAddress t).toNat = ((hlAddress s).toNat + 1) % 65536 ∧
        PlainFrame s t [.a, .h, .l] [] 0) ∧
      (∃ t, exec .ldAIndHlDec s = .next t ∧ t.a = v ∧ (hlAddress t).toNat = ((hlAddress s).toNat + 65535) % 65536 ∧
        PlainFrame s t [.a, .h, .l] [] 0)) ∧
    (s.readByte (hlAddress s) = none →
      Halts .ldAIndHlInc s 0 (.unmappedAddressError (hlAddress s)) ∧
      Halts .ldAIndHlDec s 0 (.unmappedAddressError (hlAddress s)))

/-- R130, R132: `LD (HL+),A` and `LD (HL-),A`: the store, then HL moves; on a fault HL is unchanged. -/
def Obligations.StoreAAndMoveHl : Prop :=
  encode .ldIndHlIncA = [0x22] ∧ encode .ldIndHlDecA = [0x32] ∧
  ∀ s : State, s.Inv →
    (Storable (hlAddress s) →
      (∃ t, exec .ldIndHlIncA s = .next t ∧ t.readByte (hlAddress s) = some s.a ∧
        (hlAddress t).toNat = (hlAddress s).toNat + 1 ∧ PlainFrame s t [.h, .l] [hlAddress s] 0) ∧
      (∃ t, exec .ldIndHlDecA s = .next t ∧ t.readByte (hlAddress s) = some s.a ∧
        (hlAddress t).toNat = (hlAddress s).toNat - 1 ∧ PlainFrame s t [.h, .l] [hlAddress s] 0)) ∧
    (¬ Storable (hlAddress s) →
      Halts .ldIndHlIncA s 0 (.unmappedAddressError (hlAddress s)) ∧
      Halts .ldIndHlDecA s 0 (.unmappedAddressError (hlAddress s)))

/-- R133, R134: `LD A,(a16)` and `LD (a16),A`. -/
def Obligations.LoadAndStoreAAbsolute : Prop :=
  ∀ a16 : Word,
    encode (.ldAIndA16 a16) = [0xFA, a16.extractLsb' 0 8, a16.extractLsb' 8 8] ∧
    LoadsByte (.ldAIndA16 a16) .a (fun _ => a16) 2 ∧ MissingOperandHalts (.ldAIndA16 a16) ∧
    encode (.ldIndA16A a16) = [0xEA, a16.extractLsb' 0 8, a16.extractLsb' 8 8] ∧
    StoresByte (.ldIndA16A a16) (fun _ => a16) (fun s => s.a) 2 ∧ MissingOperandHalts (.ldIndA16A a16)

/-- R135 to R138: the I/O-mapped loads and stores of A at `0xFF00 + n`, mapped exactly for `n` below 0x80. -/
def Obligations.LoadAndStoreAInIo : Prop :=
  (∀ n : Byte,
    encode (.ldhAIndA8 n) = [0xF0, n] ∧
    LoadsByte (.ldhAIndA8 n) .a (fun _ => BitVec.ofNat 16 (0xFF00 + n.toNat)) 1 ∧ MissingOperandHalts (.ldhAIndA8 n) ∧
    encode (.ldhIndA8A n) = [0xE0, n] ∧
    StoresByte (.ldhIndA8A n) (fun _ => BitVec.ofNat 16 (0xFF00 + n.toNat)) (fun s => s.a) 1 ∧
    MissingOperandHalts (.ldhIndA8A n)) ∧
  encode .ldAIndC = [0xF2] ∧ LoadsByte .ldAIndC .a (fun s => BitVec.ofNat 16 (0xFF00 + s.c.toNat)) 0 ∧
  encode .ldIndCA = [0xE2] ∧
  StoresByte .ldIndCA (fun s => BitVec.ofNat 16 (0xFF00 + s.c.toNat)) (fun s => s.a) 0 ∧
  ∀ (s : State) (n : Byte), s.config.wf = true →
    (s.readByte (BitVec.ofNat 16 (0xFF00 + n.toNat)) = none ↔ 0x80 ≤ n.toNat) ∧
    (¬ Storable (BitVec.ofNat 16 (0xFF00 + n.toNat)) ↔ 0x80 ≤ n.toNat)

/-! ### 8-bit arithmetic -/

/-- R150, R151: INC of a register and of the byte at (HL). -/
def Obligations.IncrementOperand : Prop :=
  ∀ o : Operand8, encode (Instr.inc o) = [BitVec.ofNat 8 (0x04 + 8 * operandCode o)] ∧
    ModifiesOperand (Instr.inc o) o (fun _ v => (v.toNat + 1) % 256) False
      (fun _ v => (v.toNat + 1) % 256 % 16 = 0) (fun s _ => CarrySet s)

/-- R152, R153: DEC of a register and of the byte at (HL). -/
def Obligations.DecrementOperand : Prop :=
  ∀ o : Operand8, encode (Instr.dec o) = [BitVec.ofNat 8 (0x05 + 8 * operandCode o)] ∧
    ModifiesOperand (Instr.dec o) o (fun _ v => (v.toNat + 255) % 256) True
      (fun _ v => v.toNat % 16 = 0) (fun s _ => CarrySet s)

/-- 41_arith8.md section 1, which the spec derives from R150 and R152: INC then DEC of one operand restores its value, and leaves the flags of the DEC with Carry as before. -/
def Obligations.IncrementThenDecrementRestores : Prop :=
  ∀ (o : Operand8) (s : State) (v : Byte), s.Inv → operandValue s o = some v → OperandStorable s o →
    ∃ t u, exec (Instr.inc o) s = .next t ∧ exec (Instr.dec o) t = .next u ∧ operandValue u o = some v ∧
      FlagsAre s u (v.toNat = 0) True (v.toNat % 16 = 15) (CarrySet s) ∧ PlainFrame { s with f := u.f } u [] [] 0

/-- R154, R155, R156: CP with a register, (HL) and an immediate: flags only. -/
def Obligations.CompareWithA : Prop :=
  (∀ o : Operand8, encode (Instr.cp o) = [BitVec.ofNat 8 (0xB8 + operandCode o)] ∧
    ∀ s : State,
      (∀ v, operandValue s o = some v →
        WritesFlagsOnly (Instr.cp o) s 0 (v = s.a) True (v.toNat % 16 > s.a.toNat % 16) (v.toNat > s.a.toNat)) ∧
      (operandValue s o = none → Halts (Instr.cp o) s 0 (.unmappedAddressError (hlAddress s)))) ∧
  ∀ v : Byte, encode (.cpD8 v) = [0xFE, v] ∧ MissingOperandHalts (.cpD8 v) ∧
    ∀ s : State, WritesFlagsOnly (.cpD8 v) s 1 (v = s.a) True (v.toNat % 16 > s.a.toNat % 16) (v.toNat > s.a.toNat)

/-- ADD to A of a register, (HL) and an immediate: rules R157 to R159, the spec's own decision D3 (log entry 18). -/
def Obligations.AddToA : Prop :=
  (∀ o : Operand8, encode (Instr.add o) = [BitVec.ofNat 8 (0x80 + operandCode o)] ∧
    ∀ s : State,
      (∀ v, operandValue s o = some v →
        WritesA (Instr.add o) s 0 ((s.a.toNat + v.toNat) % 256) ((s.a.toNat + v.toNat) % 256 = 0) False
          (s.a.toNat % 16 + v.toNat % 16 > 15) (s.a.toNat + v.toNat > 255)) ∧
      (operandValue s o = none → Halts (Instr.add o) s 0 (.unmappedAddressError (hlAddress s)))) ∧
  ∀ v : Byte, encode (.addAD8 v) = [0xC6, v] ∧ MissingOperandHalts (.addAD8 v) ∧
    ∀ s : State, WritesA (.addAD8 v) s 1 ((s.a.toNat + v.toNat) % 256) ((s.a.toNat + v.toNat) % 256 = 0) False
      (s.a.toNat % 16 + v.toNat % 16 > 15) (s.a.toNat + v.toNat > 255)

/-- SUB from A of a register, (HL) and an immediate, with the flags of CP: rules R160 to R162, the spec's own decision D3 (log
entry 18). -/
def Obligations.SubtractFromA : Prop :=
  (∀ o : Operand8, encode (Instr.sub o) = [BitVec.ofNat 8 (0x90 + operandCode o)] ∧
    ∀ s : State,
      (∀ v, operandValue s o = some v →
        WritesA (Instr.sub o) s 0 ((s.a.toNat + 256 - v.toNat) % 256) (v = s.a) True
          (v.toNat % 16 > s.a.toNat % 16) (v.toNat > s.a.toNat)) ∧
      (operandValue s o = none → Halts (Instr.sub o) s 0 (.unmappedAddressError (hlAddress s)))) ∧
  ∀ v : Byte, encode (.subD8 v) = [0xD6, v] ∧ MissingOperandHalts (.subD8 v) ∧
    ∀ s : State, WritesA (.subD8 v) s 1 ((s.a.toNat + 256 - v.toNat) % 256) (v = s.a) True
      (v.toNat % 16 > s.a.toNat % 16) (v.toNat > s.a.toNat)

/-! ### 16-bit arithmetic -/

/-- R170, R171: INC rr and DEC rr with no flag effect; the wrap is the spec's decision D7 (log entry 12). -/
def Obligations.IncrementAndDecrementWide : Prop :=
  ∀ w : Wide,
    encode (Instr.incWide w) = [BitVec.ofNat 8 (0x03 + 16 * wideCode w)] ∧
    encode (Instr.decWide w) = [BitVec.ofNat 8 (0x0B + 16 * wideCode w)] ∧
    ∀ s : State,
      (∃ t, exec (Instr.incWide w) s = .next t ∧ (t.getWide w).toNat = ((s.getWide w).toNat + 1) % 65536 ∧
        t.f = s.f ∧ (w ≠ .sp → t.sp = s.sp) ∧ t.pc = s.pc ∧ Frame s t (wideRegs w) []) ∧
      (∃ t, exec (Instr.decWide w) s = .next t ∧ (t.getWide w).toNat = ((s.getWide w).toNat + 65535) % 65536 ∧
        t.f = s.f ∧ (w ≠ .sp → t.sp = s.sp) ∧ t.pc = s.pc ∧ Frame s t (wideRegs w) [])

/-! ### Logic and bit test -/

/-- R175, R176, R177: XOR into A. -/
def Obligations.ExclusiveOrIntoA : Prop :=
  (∀ o : Operand8, encode (Instr.xor8 o) = [BitVec.ofNat 8 (0xA8 + operandCode o)] ∧
    ∀ s : State,
      (∀ v, operandValue s o = some v →
        WritesA (Instr.xor8 o) s 0 (s.a.toNat ^^^ v.toNat) (s.a.toNat ^^^ v.toNat = 0) False False False) ∧
      (operandValue s o = none → Halts (Instr.xor8 o) s 0 (.unmappedAddressError (hlAddress s)))) ∧
  ∀ v : Byte, encode (.xorD8 v) = [0xEE, v] ∧ MissingOperandHalts (.xorD8 v) ∧
    ∀ s : State, WritesA (.xorD8 v) s 1 (s.a.toNat ^^^ v.toNat) (s.a.toNat ^^^ v.toNat = 0) False False False

/-- AND into A, with Half-Carry set: rules R178 to R180, the spec's own decision D3 (log entry 18). -/
def Obligations.AndIntoA : Prop :=
  (∀ o : Operand8, encode (Instr.and8 o) = [BitVec.ofNat 8 (0xA0 + operandCode o)] ∧
    ∀ s : State,
      (∀ v, operandValue s o = some v →
        WritesA (Instr.and8 o) s 0 (s.a.toNat &&& v.toNat) (s.a.toNat &&& v.toNat = 0) False True False) ∧
      (operandValue s o = none → Halts (Instr.and8 o) s 0 (.unmappedAddressError (hlAddress s)))) ∧
  ∀ v : Byte, encode (.andD8 v) = [0xE6, v] ∧ MissingOperandHalts (.andD8 v) ∧
    ∀ s : State, WritesA (.andD8 v) s 1 (s.a.toNat &&& v.toNat) (s.a.toNat &&& v.toNat = 0) False True False

/-- OR into A: rules R181 to R183, the spec's own decision D3 (log entry 18). -/
def Obligations.OrIntoA : Prop :=
  (∀ o : Operand8, encode (Instr.or8 o) = [BitVec.ofNat 8 (0xB0 + operandCode o)] ∧
    ∀ s : State,
      (∀ v, operandValue s o = some v →
        WritesA (Instr.or8 o) s 0 (s.a.toNat ||| v.toNat) (s.a.toNat ||| v.toNat = 0) False False False) ∧
      (operandValue s o = none → Halts (Instr.or8 o) s 0 (.unmappedAddressError (hlAddress s)))) ∧
  ∀ v : Byte, encode (.orD8 v) = [0xF6, v] ∧ MissingOperandHalts (.orD8 v) ∧
    ∀ s : State, WritesA (.orD8 v) s 1 (s.a.toNat ||| v.toNat) (s.a.toNat ||| v.toNat = 0) False False False

/-- R185, R186: BIT b of a register and of the byte at (HL): flags only, Carry kept; it reads ROM too. -/
def Obligations.TestBit : Prop :=
  ∀ (b : Fin 8) (o : Operand8), encode (Instr.bit b o) = [0xCB, BitVec.ofNat 8 (0x40 + 8 * b.val + operandCode o)] ∧
    ∀ s : State,
      (∀ v, operandValue s o = some v →
        WritesFlagsOnly (Instr.bit b o) s 0 (v.toNat / 2 ^ b.val % 2 = 0) False True (CarrySet s)) ∧
      (operandValue s o = none → Halts (Instr.bit b o) s 0 (.unmappedAddressError (hlAddress s)))

/-! ### Rotates and shifts -/

/-- R215 to R222, R233: RLC, RRC, RL and RR of a register and of the byte at (HL). -/
def Obligations.RotateOperand : Prop :=
  ∀ o : Operand8,
    (encode (Instr.rlc o) = [0xCB, BitVec.ofNat 8 (operandCode o)] ∧
      ModifiesOperand (Instr.rlc o) o (fun _ v => 2 * v.toNat % 256 + v.toNat / 128) False (fun _ _ => False)
        (fun _ v => v.toNat / 128 = 1)) ∧
    (encode (Instr.rrc o) = [0xCB, BitVec.ofNat 8 (0x08 + operandCode o)] ∧
      ModifiesOperand (Instr.rrc o) o (fun _ v => v.toNat / 2 + 128 * (v.toNat % 2)) False (fun _ _ => False)
        (fun _ v => v.toNat % 2 = 1)) ∧
    (encode (Instr.rl o) = [0xCB, BitVec.ofNat 8 (0x10 + operandCode o)] ∧
      ModifiesOperand (Instr.rl o) o (fun s v => 2 * v.toNat % 256 + (s.f.getLsbD 4).toNat) False (fun _ _ => False)
        (fun _ v => v.toNat / 128 = 1)) ∧
    (encode (Instr.rr o) = [0xCB, BitVec.ofNat 8 (0x18 + operandCode o)] ∧
      ModifiesOperand (Instr.rr o) o (fun s v => v.toNat / 2 + 128 * (s.f.getLsbD 4).toNat) False (fun _ _ => False)
        (fun _ v => v.toNat % 2 = 1))

/-- SLA, SRA and SRL of a register and of the byte at (HL): rules R227 to R232, the spec's own decision D3 (log entry 18), with
the faults of R233. -/
def Obligations.ShiftOperand : Prop :=
  ∀ o : Operand8,
    (encode (Instr.sla o) = [0xCB, BitVec.ofNat 8 (0x20 + operandCode o)] ∧
      ModifiesOperand (Instr.sla o) o (fun _ v => 2 * v.toNat % 256) False (fun _ _ => False)
        (fun _ v => v.toNat / 128 = 1)) ∧
    (encode (Instr.sra o) = [0xCB, BitVec.ofNat 8 (0x28 + operandCode o)] ∧
      ModifiesOperand (Instr.sra o) o (fun _ v => v.toNat / 2 + 128 * (v.toNat / 128)) False (fun _ _ => False)
        (fun _ v => v.toNat % 2 = 1)) ∧
    (encode (Instr.srl o) = [0xCB, BitVec.ofNat 8 (0x38 + operandCode o)] ∧
      ModifiesOperand (Instr.srl o) o (fun _ v => v.toNat / 2) False (fun _ _ => False)
        (fun _ v => v.toNat % 2 = 1))

/-- RLCA, RRCA, RLA and RRA: rules R223 to R226, the spec's own decision D5 (log entry 18), with Z from the result; where the
parameter of U6 is false Z is cleared (log entry 7). -/
def Obligations.RotateAccumulator : Prop :=
  encode .rlcaAcc = [0x07] ∧ encode .rrcaAcc = [0x0F] ∧ encode .rlaAcc = [0x17] ∧ encode .rraAcc = [0x1F] ∧
  ∀ s : State,
    WritesA .rlcaAcc s 0 (2 * s.a.toNat % 256 + s.a.toNat / 128)
      (s.config.accRotateZFromResult = true ∧ 2 * s.a.toNat % 256 + s.a.toNat / 128 = 0) False False
      (s.a.toNat / 128 = 1) ∧
    WritesA .rrcaAcc s 0 (s.a.toNat / 2 + 128 * (s.a.toNat % 2))
      (s.config.accRotateZFromResult = true ∧ s.a.toNat / 2 + 128 * (s.a.toNat % 2) = 0) False False
      (s.a.toNat % 2 = 1) ∧
    WritesA .rlaAcc s 0 (2 * s.a.toNat % 256 + (s.f.getLsbD 4).toNat)
      (s.config.accRotateZFromResult = true ∧ 2 * s.a.toNat % 256 + (s.f.getLsbD 4).toNat = 0) False False
      (s.a.toNat / 128 = 1) ∧
    WritesA .rraAcc s 0 (s.a.toNat / 2 + 128 * (s.f.getLsbD 4).toNat)
      (s.config.accRotateZFromResult = true ∧ s.a.toNat / 2 + 128 * (s.f.getLsbD 4).toNat = 0) False False
      (s.a.toNat % 2 = 1)

/-! ### Jumps, calls, returns -/

/-- R190, R191: JR with and without a condition. The sum is checked against `[0, 0xFFFF]` only when the jump is taken. -/
def Obligations.RelativeJump : Prop :=
  ∀ (cc : Option Cond) (e8 : Byte),
    encode (Instr.jr cc e8) =
      [match cc with
        | none => 0x18
        | some cond => BitVec.ofNat 8 (0x20 + 8 * condCode cond), e8] ∧
    MissingOperandHalts (Instr.jr cc e8) ∧
    ∀ s : State,
      (CondHolds s cc → 0 ≤ ((s.pc + 1).toNat : Int) + signedValue e8 →
        ((s.pc + 1).toNat : Int) + signedValue e8 ≤ 0xFFFF →
        ∃ t, exec (Instr.jr cc e8) s = .next t ∧ (t.pc.toNat : Int) = ((s.pc + 1).toNat : Int) + signedValue e8 ∧
          t.f = s.f ∧ t.sp = s.sp ∧ Frame s t [] []) ∧
      (CondHolds s cc →
        ((s.pc + 1).toNat : Int) + signedValue e8 < 0 ∨ ((s.pc + 1).toNat : Int) + signedValue e8 > 0xFFFF →
        Halts (Instr.jr cc e8) s 1 (.invalidJumpError (s.pc + 1) (signedValue e8))) ∧
      (¬ CondHolds s cc → ∃ t, exec (Instr.jr cc e8) s = .next t ∧ PlainFrame s t [] [] 1)

/-- R192, R193, R194: JP with and without a condition, and JP HL, which reads no memory. That the immediate is read when the
jump is not taken is the spec's decision D11 (log entry 23). -/
def Obligations.AbsoluteJump : Prop :=
  (∀ (cc : Option Cond) (a16 : Word),
    encode (Instr.jp cc a16) =
      [match cc with
        | none => 0xC3
        | some cond => BitVec.ofNat 8 (0xC2 + 8 * condCode cond), a16.extractLsb' 0 8, a16.extractLsb' 8 8] ∧
    MissingOperandHalts (Instr.jp cc a16) ∧
    ∀ s : State,
      (CondHolds s cc → ∃ t, exec (Instr.jp cc a16) s = .next t ∧ t.pc = a16 ∧ t.f = s.f ∧ t.sp = s.sp ∧
        Frame s t [] []) ∧
      (¬ CondHolds s cc → ∃ t, exec (Instr.jp cc a16) s = .next t ∧ PlainFrame s t [] [] 2)) ∧
  encode .jpHl = [0xE9] ∧
  ∀ s : State, ∃ t, exec .jpHl s = .next t ∧ t.pc = hlAddress s ∧ t.f = s.f ∧ t.sp = s.sp ∧ Frame s t [] []

/-- R200, R201: CALL with and without a condition: the address after the CALL is pushed, then the jump; not taken, only `pc`
moves. -/
def Obligations.CallPushesTheReturnAddress : Prop :=
  ∀ (cc : Option Cond) (a16 : Word),
    encode (Instr.call cc a16) =
      [match cc with
        | none => 0xCD
        | some cond => BitVec.ofNat 8 (0xC4 + 8 * condCode cond), a16.extractLsb' 0 8, a16.extractLsb' 8 8] ∧
    MissingOperandHalts (Instr.call cc a16) ∧
    ∀ s : State, s.Inv →
      (CondHolds s cc → Pushable s.sp → Pushes (Instr.call cc a16) s (s.pc + 2) a16) ∧
      (CondHolds s cc → ¬ Pushable s.sp → PushFaults (Instr.call cc a16) s (s.pc + 2) 2) ∧
      (¬ CondHolds s cc → ∃ t, exec (Instr.call cc a16) s = .next t ∧ PlainFrame s t [] [] 2)

/-- R202, R203: RET with and without a condition: a word is popped into `pc`; not taken, nothing changes. -/
def Obligations.ReturnPopsPc : Prop :=
  ∀ cc : Option Cond,
    encode (Instr.retCond cc) =
      [match cc with
        | none => 0xC9
        | some cond => BitVec.ofNat 8 (0xC0 + 8 * condCode cond)] ∧
    ∀ s : State,
      (∀ lo hi, CondHolds s cc → s.readByte s.sp = some lo → s.readByte (s.sp + 1) = some hi →
        ∃ t, exec (Instr.retCond cc) s = .next t ∧ t.pc = hi ++ lo ∧ t.sp.toNat = (s.sp.toNat + 2) % 65536 ∧
          t.f = s.f ∧ Frame s t [] []) ∧
      (CondHolds s cc → s.readByte s.sp = none → Halts (Instr.retCond cc) s 0 (.unmappedAddressError s.sp)) ∧
      (∀ lo, CondHolds s cc → s.readByte s.sp = some lo → s.readByte (s.sp + 1) = none →
        Halts (Instr.retCond cc) s 0 (.unmappedAddressError (s.sp + 1))) ∧
      (¬ CondHolds s cc → ∃ t, exec (Instr.retCond cc) s = .next t ∧ PlainFrame s t [] [] 0)

/-- 46_calls.md, which the spec derives from R200 and R202: a RET executed when SP and the two stack bytes are as a CALL left them continues after that CALL, with SP as it was
before it. -/
def Obligations.ReturnResumesAfterTheCall : Prop :=
  ∀ (cc cc' : Option Cond) (a16 : Word) (s : State), s.Inv → CondHolds s cc → Pushable s.sp →
    ∃ t, exec (Instr.call cc a16) s = .next t ∧
      ∀ t' : State, t'.sp = t.sp → t'.readByte t.sp = t.readByte t.sp →
        t'.readByte (t.sp + 1) = t.readByte (t.sp + 1) → CondHolds t' cc' →
        ∃ u, exec (Instr.retCond cc') t' = .next u ∧ u.pc = s.pc + 2 ∧ u.sp = s.sp

/-! ### Stack -/

/-- R210, R211: PUSH of a pair; the low register lies at the new SP. The low nibble of a pushed F is zero (R27). -/
def Obligations.PushStoresThePair : Prop :=
  ∀ p : Pair, encode (Instr.push p) = [BitVec.ofNat 8 (0xC5 + 16 * pairCode p)] ∧
    ∀ s : State, s.Inv →
      (Pushable s.sp → Pushes (Instr.push p) s (s.getPair p) s.pc ∧ (p = .af → s.getPair p &&& 0x000F = 0)) ∧
      (¬ Pushable s.sp → PushFaults (Instr.push p) s (s.getPair p) 0)

/-- R212, R213: POP into a pair; AF takes the popped word without bits 3:0 (decision D6, log entry 11); a faulting POP changes neither SP nor the pair. -/
def Obligations.PopLoadsThePair : Prop :=
  ∀ p : Pair, encode (Instr.pop p) = [BitVec.ofNat 8 (0xC1 + 16 * pairCode p)] ∧
    ∀ s : State,
      (∀ lo hi, s.readByte s.sp = some lo → s.readByte (s.sp + 1) = some hi →
        ∃ t, exec (Instr.pop p) s = .next t ∧ (p ≠ .af → t.getPair p = hi ++ lo ∧ t.f = s.f) ∧
          (p = .af → t.a = hi ∧ t.f = lo &&& 0xF0) ∧ t.sp.toNat = (s.sp.toNat + 2) % 65536 ∧ t.pc = s.pc ∧
          Frame s t (pairRegs p) []) ∧
      (s.readByte s.sp = none → Halts (Instr.pop p) s 0 (.unmappedAddressError s.sp)) ∧
      (∀ lo, s.readByte s.sp = some lo → s.readByte (s.sp + 1) = none →
        Halts (Instr.pop p) s 0 (.unmappedAddressError (s.sp + 1)))

/-- R214: PUSH then POP moves a pair and restores SP; into AF the value loses bits 3:0; the stack bytes keep the value. -/
def Obligations.PushThenPopMovesThePair : Prop :=
  ∀ (p p' : Pair) (s : State), s.Inv → Pushable s.sp → p ≠ .af →
    ∃ t u, exec (Instr.push p) s = .next t ∧ exec (Instr.pop p') t = .next u ∧ u.sp = s.sp ∧
      (p' ≠ .af → u.getPair p' = s.getPair p ∧ u.f = s.f) ∧ (p' = .af → u.getPair .af = s.getPair p &&& 0xFFF0) ∧
      Frame t u (pairRegs p') [] ∧ Frame s t [] [s.sp - 2, s.sp - 1] ∧
      t.readByte (s.sp - 2) = some ((s.getPair p).extractLsb' 0 8) ∧
      t.readByte (s.sp - 1) = some ((s.getPair p).extractLsb' 8 8)

/-- 70_reset_and_hazards.md section 2, which the spec derives from R51 and R210: a push succeeds exactly when the old SP is in 0x8002 to 0xA000 or in 0xFF02 to 0xFF80; at SP = 0, its value after
reset, it faults at 0xFFFE. -/
def Obligations.PushNeedsAStackInVramOrIo : Prop :=
  ∀ (p : Pair) (s : State), s.config.wf = true → s.Running →
    ∃ t, exec (Instr.push p) s = .next t ∧ (t.Running ↔ Pushable s.sp) ∧
      (s.sp = 0 → t.engine = .haltedOnError (.unmappedAddressError 0xFFFE))

/-! ### The host -/

/-- R262, R263, R265: whatever commands the operator gives, a cycle under the debugger is the machine's own step, or a
pause in which nothing has changed, or the end of the run; without DEBUG_ENABLED the hook does not exist; step mode and an
enabled breakpoint at `pc` enter the command loop, from which `continue` lets the cycle proceed with step mode cleared and
`step` with step mode kept as it is. Two clauses rest on the model's own choices: that a pause changes nothing and that only
`kill` ends the run, `disassemble` on an unmapped byte included, on log entry 28; what `continue` and `step` do to step mode
on the reading of R263 in log entry 14. -/
def Obligations.DebuggerOnlyDelaysOrEndsTheRun : Prop :=
  ∀ (commands : List Command) (d : Debugger) (s : State),
    (∀ d' r, hostedCycle commands d s = .cycle d' r → r = step s) ∧
    (∀ d' s', hostedCycle commands d s = .paused d' s' → s' = s ∧ s.config.debugEnabled = true) ∧
    (hostedCycle commands d s = .killed → s.config.debugEnabled = true ∧ Command.kill ∈ commands) ∧
    (s.config.debugEnabled = false → hostedCycle commands d s = .cycle d (step s)) ∧
    (d.stepMode = false → (∀ bp ∈ d.breakpoints, bp.enabled = true → bp.address ≠ s.pc) →
      hostedCycle commands d s = .cycle d (step s)) ∧
    (s.Running → s.config.debugEnabled = true →
      (d.stepMode = true ∨ ∃ bp ∈ d.breakpoints, bp.enabled = true ∧ bp.address = s.pc) →
      hostedCycle [] d s = .paused d s ∧
      hostedCycle (.resume :: commands) d s = .cycle { d with stepMode := false } (step s) ∧
      hostedCycle (.stepOne :: commands) d s = .cycle d (step s))

/-- R266: no instruction reads whether `DEBUG_ENABLED` is set. The step of an engine built with the other value is the same
step, to the state that differs in that parameter alone, or the same stop. -/
def Obligations.StepDoesNotReadTheDebugSwitch : Prop :=
  ∀ (s : State) (on : Bool),
    (∀ t, step s = .next t → step (s.setDebug on) = .next (t.setDebug on)) ∧
    (∀ r, step s = .fault r → step (s.setDebug on) = .fault r)

/-! ### The optional rows -/

/-- U9 of 93_implementation_defined.md, a parameter the model takes (log entry 7): with `DECIDED_ROWS_PRESENT` false the 64
decided keys are absent and raise DecodeError as every other absent key does; the value of the parameter takes no other row
away. -/
def Obligations.DecidedRowsAreAbsentWithoutTheParameter : Prop :=
  (∀ (s : State) (op : Byte), s.Running → s.config.decidedRowsPresent = false → s.readByte s.pc = some op →
    DecidedPlain op →
    step s = .next { s with
      pc := s.pc + 1, engine := .haltedOnError (.decodeError (BitVec.setWidth 16 op) s.pc) }) ∧
  (∀ (s : State) (second : Byte), s.Running → s.config.decidedRowsPresent = false → s.readByte s.pc = some 0xCB →
    s.readByte (s.pc + 1) = some second → DecidedSecond second →
    step s = .next { s with
      pc := s.pc + 2, engine := .haltedOnError (.decodeError (0xCB00 ||| BitVec.setWidth 16 second) s.pc) }) ∧
  (∀ (cfg : Config) (op : Byte), op ≠ 0xCB → op.toNat ∉ absentPlain → ¬ DecidedPlain op →
    (lookup cfg (BitVec.setWidth 16 op)).isSome = true) ∧
  (∀ (cfg : Config) (second : Byte), ¬ AbsentSecond second → ¬ DecidedSecond second →
    (lookup cfg (0xCB00 ||| BitVec.setWidth 16 second)).isSome = true)
end

