-- ==== Sys2Proof/Laws/Arith.lean ====
section
/-! SUPPORT. The byte functions of the instruction rules as numbers, once each. -/

namespace Sys2Proof.Machine

/-- Zero of a result (R26). -/
theorem zeroOf_iff : ∀ res : Byte, zeroOf res = true ↔ res.toNat = 0 := by decide

/-- The low nibble as a number. -/
theorem toNat_lowNibble : ∀ v : Byte, (v &&& 0x0F).toNat = v.toNat % 16 := by decide

theorem halfOfInc_iff : ∀ v : Byte, halfOfInc (v + 1) = true ↔ (v.toNat + 1) % 256 % 16 = 0 := by decide

theorem halfOfDec_iff : ∀ v : Byte, halfOfDec v = true ↔ v.toNat % 16 = 0 := by decide

theorem halfOfAdd_iff (a v : Byte) : halfOfAdd a v = true ↔ a.toNat % 16 + v.toNat % 16 > 15 := by
  simp only [halfOfAdd, toNat_lowNibble, decide_eq_true_eq]

theorem halfOfSub_iff (a v : Byte) : halfOfSub a v = true ↔ v.toNat % 16 > a.toNat % 16 := by
  simp only [halfOfSub, toNat_lowNibble, decide_eq_true_eq]

theorem toNat_rotl : ∀ v : Byte, (rotl v).toNat = 2 * v.toNat % 256 + v.toNat / 128 := by decide

theorem toNat_rotr : ∀ v : Byte, (rotr v).toNat = v.toNat / 2 + 128 * (v.toNat % 2) := by decide

theorem toNat_rotlThrough : ∀ (cin : Bool) (v : Byte), (rotlThrough cin v).toNat = 2 * v.toNat % 256 + cin.toNat := by
  decide

theorem toNat_rotrThrough : ∀ (cin : Bool) (v : Byte), (rotrThrough cin v).toNat = v.toNat / 2 + 128 * cin.toNat := by
  decide

theorem toNat_shiftLeft : ∀ v : Byte, (shiftLeft v).toNat = 2 * v.toNat % 256 := by decide

theorem toNat_shiftRightArith : ∀ v : Byte, (shiftRightArith v).toNat = v.toNat / 2 + 128 * (v.toNat / 128) := by decide

theorem toNat_shiftRightLogic : ∀ v : Byte, (shiftRightLogic v).toNat = v.toNat / 2 := by decide

theorem bit7_iff : ∀ v : Byte, bit7 v = true ↔ v.toNat / 128 = 1 := by decide

theorem bit0_iff : ∀ v : Byte, bit0 v = true ↔ v.toNat % 2 = 1 := by decide

/-- A tested bit as a number (R185). -/
theorem testedBit_iff : ∀ (b : Fin 8) (v : Byte), (!v.getLsbD b.val) = true ↔ v.toNat / 2 ^ b.val % 2 = 0 := by decide

/-- The signed offset as the statements write it (R7). -/
theorem signedOffset_eq (e8 : Byte) : signedOffset e8 = signedValue e8 := by
  have := e8.isLt
  simp only [signedOffset, signedValue, BitVec.toInt]
  split <;> split <;> omega

/-- The address of an I/O-mapped form as a number (R135 to R138). -/
theorem ioAddress_eq (n : Byte) : ioAddress n = BitVec.ofNat 16 (0xFF00 + n.toNat) := by
  simp only [ioAddress]
  bv_omega

end Sys2Proof.Machine
end

