-- ==== Sys2Proof/Laws/Exec.lean ====
section
/-! SUPPORT. What `exec` answers for a family of instructions: one operation of the family, for every operand of it. -/

namespace Sys2Proof.Machine

/-- The condition of a conditional instruction; an unconditional one is always taken. -/
def State.taken (s : State) : Option Cond → Bool
  | none => true
  | some cond => s.cond cond

variable (s : State)

theorem exec_ldReg (r r' : Reg8) : exec (Instr.ldReg r r') s = .next (loadReg r r' s) := by
  cases r <;> cases r' <;> rfl

theorem exec_ldFromHl (r : Reg8) : exec (Instr.ldFromHl r) s = .next (loadFrom r s.hl s) := by cases r <;> rfl

theorem exec_ldToHl (r : Reg8) : exec (Instr.ldToHl r) s = .next (storeAt s.hl (s.get8 r) s) := by cases r <;> rfl

theorem exec_ldImm8 (r : Reg8) (v : Byte) : exec (Instr.ldImm8 (.reg r) v) s = .next (loadImm8 r v s) := by
  cases r <;> rfl

theorem exec_ldWide (w : Wide) (v : Word) : exec (Instr.ldWide w v) s = .next (loadImm16 w v s) := by cases w <;> rfl

theorem exec_inc (o : Operand8) : exec (Instr.inc o) s = .next (incOperand o s) := by
  rcases o with _ | _ <;> [rename_i r; skip] <;> [cases r; skip] <;> rfl

theorem exec_dec (o : Operand8) : exec (Instr.dec o) s = .next (decOperand o s) := by
  rcases o with _ | _ <;> [rename_i r; skip] <;> [cases r; skip] <;> rfl

theorem exec_add (o : Operand8) : exec (Instr.add o) s = .next (readOperandThen o s fun v => addA v s) := by
  rcases o with _ | _ <;> [rename_i r; skip] <;> [cases r; skip] <;> rfl

theorem exec_sub (o : Operand8) : exec (Instr.sub o) s = .next (readOperandThen o s fun v => subA v s) := by
  rcases o with _ | _ <;> [rename_i r; skip] <;> [cases r; skip] <;> rfl

theorem exec_and8 (o : Operand8) : exec (Instr.and8 o) s = .next (readOperandThen o s fun v => andA v s) := by
  rcases o with _ | _ <;> [rename_i r; skip] <;> [cases r; skip] <;> rfl

theorem exec_xor8 (o : Operand8) : exec (Instr.xor8 o) s = .next (readOperandThen o s fun v => xorA v s) := by
  rcases o with _ | _ <;> [rename_i r; skip] <;> [cases r; skip] <;> rfl

theorem exec_or8 (o : Operand8) : exec (Instr.or8 o) s = .next (readOperandThen o s fun v => orA v s) := by
  rcases o with _ | _ <;> [rename_i r; skip] <;> [cases r; skip] <;> rfl

theorem exec_cp (o : Operand8) : exec (Instr.cp o) s = .next (readOperandThen o s fun v => compareA v s) := by
  rcases o with _ | _ <;> [rename_i r; skip] <;> [cases r; skip] <;> rfl

theorem exec_rlc (o : Operand8) : exec (Instr.rlc o) s = .next (rotateOperand rotl bit7 o s) := by
  rcases o with _ | _ <;> [rename_i r; skip] <;> [cases r; skip] <;> rfl

theorem exec_rrc (o : Operand8) : exec (Instr.rrc o) s = .next (rotateOperand rotr bit0 o s) := by
  rcases o with _ | _ <;> [rename_i r; skip] <;> [cases r; skip] <;> rfl

theorem exec_rl (o : Operand8) : exec (Instr.rl o) s = .next (rotateOperand (rotlThrough s.cin) bit7 o s) := by
  rcases o with _ | _ <;> [rename_i r; skip] <;> [cases r; skip] <;> rfl

theorem exec_rr (o : Operand8) : exec (Instr.rr o) s = .next (rotateOperand (rotrThrough s.cin) bit0 o s) := by
  rcases o with _ | _ <;> [rename_i r; skip] <;> [cases r; skip] <;> rfl

theorem exec_sla (o : Operand8) : exec (Instr.sla o) s = .next (rotateOperand shiftLeft bit7 o s) := by
  rcases o with _ | _ <;> [rename_i r; skip] <;> [cases r; skip] <;> rfl

theorem exec_sra (o : Operand8) : exec (Instr.sra o) s = .next (rotateOperand shiftRightArith bit0 o s) := by
  rcases o with _ | _ <;> [rename_i r; skip] <;> [cases r; skip] <;> rfl

theorem exec_srl (o : Operand8) : exec (Instr.srl o) s = .next (rotateOperand shiftRightLogic bit0 o s) := by
  rcases o with _ | _ <;> [rename_i r; skip] <;> [cases r; skip] <;> rfl

theorem exec_bit (b : Fin 8) (o : Operand8) : exec (Instr.bit b o) s = .next (testBit b.val o s) := by
  have : b = 0 ∨ b = 1 ∨ b = 2 ∨ b = 3 ∨ b = 4 ∨ b = 5 ∨ b = 6 ∨ b = 7 := by revert b; decide
  rcases this with rfl | rfl | rfl | rfl | rfl | rfl | rfl | rfl <;>
    (rcases o with _ | _ <;> [rename_i r; skip] <;> [cases r; skip] <;> rfl)

theorem exec_incWide (w : Wide) : exec (Instr.incWide w) s = .next (incWide w s) := by cases w <;> rfl

theorem exec_decWide (w : Wide) : exec (Instr.decWide w) s = .next (decWide w s) := by cases w <;> rfl

theorem exec_push (p : Pair) : exec (Instr.push p) s = .next (pushPair p s) := by cases p <;> rfl

theorem exec_pop (p : Pair) : exec (Instr.pop p) s = .next (popPair p s) := by cases p <;> rfl

theorem exec_jr (cc : Option Cond) (e8 : Byte) : exec (Instr.jr cc e8) s = .next (jumpRelative (s.taken cc) e8 s) := by
  rcases cc with _ | cond <;> [skip; cases cond] <;> rfl

theorem exec_jp (cc : Option Cond) (a16 : Word) : exec (Instr.jp cc a16) s = .next (jumpAbsolute (s.taken cc) a16 s) := by
  rcases cc with _ | cond <;> [skip; cases cond] <;> rfl

theorem exec_call (cc : Option Cond) (a16 : Word) :
    exec (Instr.call cc a16) s = .next (callAbsolute (s.taken cc) a16 s) := by
  rcases cc with _ | cond <;> [skip; cases cond] <;> rfl

theorem exec_retCond (cc : Option Cond) : exec (Instr.retCond cc) s = .next (returnPop (s.taken cc) s) := by
  rcases cc with _ | cond <;> [skip; cases cond] <;> rfl

/-- Every arm answers a next state: no instruction stops the machine by itself or is refused (R240). -/
theorem exec_answers_next (i : Instr) : ∃ t, exec i s = .next t := by cases i <;> exact ⟨_, rfl⟩

end Sys2Proof.Machine

namespace Sys2Proof

/-- To show something of every instruction it is enough to show it of every family, for every operand, and of the rows that
stand alone. -/
theorem Instr.byFamily {P : Instr → Prop}
    (ldWide : ∀ (x : Wide) (v : Word), P (Instr.ldWide x v)) (ldIndBcA : P .ldIndBcA)
    (incWide : ∀ (x : Wide), P (Instr.incWide x)) (inc : ∀ (x : Operand8), P (Instr.inc x))
    (dec : ∀ (x : Operand8), P (Instr.dec x)) (ldImm8 : ∀ (x : Operand8) (v : Byte), P (Instr.ldImm8 x v))
    (rlcaAcc : P .rlcaAcc) (ldAIndBc : P .ldAIndBc) (decWide : ∀ (x : Wide), P (Instr.decWide x))
    (rrcaAcc : P .rrcaAcc) (ldIndDeA : P .ldIndDeA) (rlaAcc : P .rlaAcc)
    (jr : ∀ (x : Option Cond) (v : Byte), P (Instr.jr x v)) (ldAIndDe : P .ldAIndDe) (rraAcc : P .rraAcc)
    (ldIndHlIncA : P .ldIndHlIncA) (ldAIndHlInc : P .ldAIndHlInc) (ldIndHlDecA : P .ldIndHlDecA)
    (ldAIndHlDec : P .ldAIndHlDec) (ldReg : ∀ (x : Reg8) (v : Reg8), P (Instr.ldReg x v))
    (ldFromHl : ∀ (x : Reg8), P (Instr.ldFromHl x)) (ldToHl : ∀ (x : Reg8), P (Instr.ldToHl x))
    (add : ∀ (x : Operand8), P (Instr.add x)) (sub : ∀ (x : Operand8), P (Instr.sub x))
    (and8 : ∀ (x : Operand8), P (Instr.and8 x)) (xor8 : ∀ (x : Operand8), P (Instr.xor8 x))
    (or8 : ∀ (x : Operand8), P (Instr.or8 x)) (cp : ∀ (x : Operand8), P (Instr.cp x))
    (retCond : ∀ (x : Option Cond), P (Instr.retCond x)) (pop : ∀ (x : Pair), P (Instr.pop x))
    (jp : ∀ (x : Option Cond) (v : Word), P (Instr.jp x v))
    (call : ∀ (x : Option Cond) (v : Word), P (Instr.call x v)) (push : ∀ (x : Pair), P (Instr.push x))
    (addAD8 : ∀ v, P (.addAD8 v)) (subD8 : ∀ v, P (.subD8 v)) (ldhIndA8A : ∀ v, P (.ldhIndA8A v))
    (ldIndCA : P .ldIndCA) (andD8 : ∀ v, P (.andD8 v)) (jpHl : P .jpHl) (ldIndA16A : ∀ v, P (.ldIndA16A v))
    (xorD8 : ∀ v, P (.xorD8 v)) (ldhAIndA8 : ∀ v, P (.ldhAIndA8 v)) (ldAIndC : P .ldAIndC)
    (orD8 : ∀ v, P (.orD8 v)) (ldAIndA16 : ∀ v, P (.ldAIndA16 v)) (cpD8 : ∀ v, P (.cpD8 v))
    (rlc : ∀ (x : Operand8), P (Instr.rlc x)) (rrc : ∀ (x : Operand8), P (Instr.rrc x))
    (rl : ∀ (x : Operand8), P (Instr.rl x)) (rr : ∀ (x : Operand8), P (Instr.rr x))
    (sla : ∀ (x : Operand8), P (Instr.sla x)) (sra : ∀ (x : Operand8), P (Instr.sra x))
    (srl : ∀ (x : Operand8), P (Instr.srl x)) (bit : ∀ (x : Fin 8) (v : Operand8), P (Instr.bit x v)) :
    ∀ i, P i
  | .ldBcD16 v => ldWide .bc v
  | .ldIndBcA => ldIndBcA
  | .incBc => incWide .bc
  | .incB => inc (.reg .b)
  | .decB => dec (.reg .b)
  | .ldBD8 v => ldImm8 (.reg .b) v
  | .rlcaAcc => rlcaAcc
  | .ldAIndBc => ldAIndBc
  | .decBc => decWide .bc
  | .incC => inc (.reg .c)
  | .decC => dec (.reg .c)
  | .ldCD8 v => ldImm8 (.reg .c) v
  | .rrcaAcc => rrcaAcc
  | .ldDeD16 v => ldWide .de v
  | .ldIndDeA => ldIndDeA
  | .incDe => incWide .de
  | .incD => inc (.reg .d)
  | .decD => dec (.reg .d)
  | .ldDD8 v => ldImm8 (.reg .d) v
  | .rlaAcc => rlaAcc
  | .jrE8 v => jr none v
  | .ldAIndDe => ldAIndDe
  | .decDe => decWide .de
  | .incE => inc (.reg .e)
  | .decE => dec (.reg .e)
  | .ldED8 v => ldImm8 (.reg .e) v
  | .rraAcc => rraAcc
  | .jrNzE8 v => jr (some .nz) v
  | .ldHlD16 v => ldWide .hl v
  | .ldIndHlIncA => ldIndHlIncA
  | .incHl => incWide .hl
  | .incH => inc (.reg .h)
  | .decH => dec (.reg .h)
  | .ldHD8 v => ldImm8 (.reg .h) v
  | .jrZE8 v => jr (some .z) v
  | .ldAIndHlInc => ldAIndHlInc
  | .decHl => decWide .hl
  | .incL => inc (.reg .l)
  | .decL => dec (.reg .l)
  | .ldLD8 v => ldImm8 (.reg .l) v
  | .jrNcE8 v => jr (some .nc) v
  | .ldSpD16 v => ldWide .sp v
  | .ldIndHlDecA => ldIndHlDecA
  | .incSp => incWide .sp
  | .incIndHl => inc .indHl
  | .decIndHl => dec .indHl
  | .ldIndHlD8 v => ldImm8 .indHl v
  | .jrCE8 v => jr (some .c) v
  | .ldAIndHlDec => ldAIndHlDec
  | .decSp => decWide .sp
  | .incA => inc (.reg .a)
  | .decA => dec (.reg .a)
  | .ldAD8 v => ldImm8 (.reg .a) v
  | .ldBB => ldReg .b .b
  | .ldBC => ldReg .b .c
  | .ldBD => ldReg .b .d
  | .ldBE => ldReg .b .e
  | .ldBH => ldReg .b .h
  | .ldBL => ldReg .b .l
  | .ldBIndHl => ldFromHl .b
  | .ldBA => ldReg .b .a
  | .ldCB => ldReg .c .b
  | .ldCC => ldReg .c .c
  | .ldCD => ldReg .c .d
  | .ldCE => ldReg .c .e
  | .ldCH => ldReg .c .h
  | .ldCL => ldReg .c .l
  | .ldCIndHl => ldFromHl .c
  | .ldCA => ldReg .c .a
  | .ldDB => ldReg .d .b
  | .ldDC => ldReg .d .c
  | .ldDD => ldReg .d .d
  | .ldDE => ldReg .d .e
  | .ldDH => ldReg .d .h
  | .ldDL => ldReg .d .l
  | .ldDIndHl => ldFromHl .d
  | .ldDA => ldReg .d .a
  | .ldEB => ldReg .e .b
  | .ldEC => ldReg .e .c
  | .ldED => ldReg .e .d
  | .ldEE => ldReg .e .e
  | .ldEH => ldReg .e .h
  | .ldEL => ldReg .e .l
  | .ldEIndHl => ldFromHl .e
  | .ldEA => ldReg .e .a
  | .ldHB => ldReg .h .b
  | .ldHC => ldReg .h .c
  | .ldHD => ldReg .h .d
  | .ldHE => ldReg .h .e
  | .ldHH => ldReg .h .h
  | .ldHL => ldReg .h .l
  | .ldHIndHl => ldFromHl .h
  | .ldHA => ldReg .h .a
  | .ldLB => ldReg .l .b
  | .ldLC => ldReg .l .c
  | .ldLD => ldReg .l .d
  | .ldLE => ldReg .l .e
  | .ldLH => ldReg .l .h
  | .ldLL => ldReg .l .l
  | .ldLIndHl => ldFromHl .l
  | .ldLA => ldReg .l .a
  | .ldIndHlB => ldToHl .b
  | .ldIndHlC => ldToHl .c
  | .ldIndHlD => ldToHl .d
  | .ldIndHlE => ldToHl .e
  | .ldIndHlH => ldToHl .h
  | .ldIndHlL => ldToHl .l
  | .ldIndHlA => ldToHl .a
  | .ldAB => ldReg .a .b
  | .ldAC => ldReg .a .c
  | .ldAD => ldReg .a .d
  | .ldAE => ldReg .a .e
  | .ldAH => ldReg .a .h
  | .ldAL => ldReg .a .l
  | .ldAIndHl => ldFromHl .a
  | .ldAA => ldReg .a .a
  | .addAB => add (.reg .b)
  | .addAC => add (.reg .c)
  | .addAD => add (.reg .d)
  | .addAE => add (.reg .e)
  | .addAH => add (.reg .h)
  | .addAL => add (.reg .l)
  | .addAIndHl => add .indHl
  | .addAA => add (.reg .a)
  | .subB => sub (.reg .b)
  | .subC => sub (.reg .c)
  | .subD => sub (.reg .d)
  | .subE => sub (.reg .e)
  | .subH => sub (.reg .h)
  | .subL => sub (.reg .l)
  | .subIndHl => sub .indHl
  | .subA => sub (.reg .a)
  | .andB => and8 (.reg .b)
  | .andC => and8 (.reg .c)
  | .andD => and8 (.reg .d)
  | .andE => and8 (.reg .e)
  | .andH => and8 (.reg .h)
  | .andL => and8 (.reg .l)
  | .andIndHl => and8 .indHl
  | .andA => and8 (.reg .a)
  | .xorB => xor8 (.reg .b)
  | .xorC => xor8 (.reg .c)
  | .xorD => xor8 (.reg .d)
  | .xorE => xor8 (.reg .e)
  | .xorH => xor8 (.reg .h)
  | .xorL => xor8 (.reg .l)
  | .xorIndHl => xor8 .indHl
  | .xorA => xor8 (.reg .a)
  | .orB => or8 (.reg .b)
  | .orC => or8 (.reg .c)
  | .orD => or8 (.reg .d)
  | .orE => or8 (.reg .e)
  | .orH => or8 (.reg .h)
  | .orL => or8 (.reg .l)
  | .orIndHl => or8 .indHl
  | .orA => or8 (.reg .a)
  | .cpB => cp (.reg .b)
  | .cpC => cp (.reg .c)
  | .cpD => cp (.reg .d)
  | .cpE => cp (.reg .e)
  | .cpH => cp (.reg .h)
  | .cpL => cp (.reg .l)
  | .cpIndHl => cp .indHl
  | .cpA => cp (.reg .a)
  | .retNz => retCond (some .nz)
  | .popBc => pop .bc
  | .jpNzA16 v => jp (some .nz) v
  | .jpA16 v => jp none v
  | .callNzA16 v => call (some .nz) v
  | .pushBc => push .bc
  | .addAD8 v => addAD8 v
  | .retZ => retCond (some .z)
  | .ret => retCond none
  | .jpZA16 v => jp (some .z) v
  | .callZA16 v => call (some .z) v
  | .callA16 v => call none v
  | .retNc => retCond (some .nc)
  | .popDe => pop .de
  | .jpNcA16 v => jp (some .nc) v
  | .callNcA16 v => call (some .nc) v
  | .pushDe => push .de
  | .subD8 v => subD8 v
  | .retC => retCond (some .c)
  | .jpCA16 v => jp (some .c) v
  | .callCA16 v => call (some .c) v
  | .ldhIndA8A v => ldhIndA8A v
  | .popHl => pop .hl
  | .ldIndCA => ldIndCA
  | .pushHl => push .hl
  | .andD8 v => andD8 v
  | .jpHl => jpHl
  | .ldIndA16A v => ldIndA16A v
  | .xorD8 v => xorD8 v
  | .ldhAIndA8 v => ldhAIndA8 v
  | .popAf => pop .af
  | .ldAIndC => ldAIndC
  | .pushAf => push .af
  | .orD8 v => orD8 v
  | .ldAIndA16 v => ldAIndA16 v
  | .cpD8 v => cpD8 v
  | .rlcB => rlc (.reg .b)
  | .rlcC => rlc (.reg .c)
  | .rlcD => rlc (.reg .d)
  | .rlcE => rlc (.reg .e)
  | .rlcH => rlc (.reg .h)
  | .rlcL => rlc (.reg .l)
  | .rlcIndHl => rlc .indHl
  | .rlcA => rlc (.reg .a)
  | .rrcB => rrc (.reg .b)
  | .rrcC => rrc (.reg .c)
  | .rrcD => rrc (.reg .d)
  | .rrcE => rrc (.reg .e)
  | .rrcH => rrc (.reg .h)
  | .rrcL => rrc (.reg .l)
  | .rrcIndHl => rrc .indHl
  | .rrcA => rrc (.reg .a)
  | .rlB => rl (.reg .b)
  | .rlC => rl (.reg .c)
  | .rlD => rl (.reg .d)
  | .rlE => rl (.reg .e)
  | .rlH => rl (.reg .h)
  | .rlL => rl (.reg .l)
  | .rlIndHl => rl .indHl
  | .rlA => rl (.reg .a)
  | .rrB => rr (.reg .b)
  | .rrC => rr (.reg .c)
  | .rrD => rr (.reg .d)
  | .rrE => rr (.reg .e)
  | .rrH => rr (.reg .h)
  | .rrL => rr (.reg .l)
  | .rrIndHl => rr .indHl
  | .rrA => rr (.reg .a)
  | .slaB => sla (.reg .b)
  | .slaC => sla (.reg .c)
  | .slaD => sla (.reg .d)
  | .slaE => sla (.reg .e)
  | .slaH => sla (.reg .h)
  | .slaL => sla (.reg .l)
  | .slaIndHl => sla .indHl
  | .slaA => sla (.reg .a)
  | .sraB => sra (.reg .b)
  | .sraC => sra (.reg .c)
  | .sraD => sra (.reg .d)
  | .sraE => sra (.reg .e)
  | .sraH => sra (.reg .h)
  | .sraL => sra (.reg .l)
  | .sraIndHl => sra .indHl
  | .sraA => sra (.reg .a)
  | .srlB => srl (.reg .b)
  | .srlC => srl (.reg .c)
  | .srlD => srl (.reg .d)
  | .srlE => srl (.reg .e)
  | .srlH => srl (.reg .h)
  | .srlL => srl (.reg .l)
  | .srlIndHl => srl .indHl
  | .srlA => srl (.reg .a)
  | .bit0B => bit 0 (.reg .b)
  | .bit0C => bit 0 (.reg .c)
  | .bit0D => bit 0 (.reg .d)
  | .bit0E => bit 0 (.reg .e)
  | .bit0H => bit 0 (.reg .h)
  | .bit0L => bit 0 (.reg .l)
  | .bit0IndHl => bit 0 .indHl
  | .bit0A => bit 0 (.reg .a)
  | .bit1B => bit 1 (.reg .b)
  | .bit1C => bit 1 (.reg .c)
  | .bit1D => bit 1 (.reg .d)
  | .bit1E => bit 1 (.reg .e)
  | .bit1H => bit 1 (.reg .h)
  | .bit1L => bit 1 (.reg .l)
  | .bit1IndHl => bit 1 .indHl
  | .bit1A => bit 1 (.reg .a)
  | .bit2B => bit 2 (.reg .b)
  | .bit2C => bit 2 (.reg .c)
  | .bit2D => bit 2 (.reg .d)
  | .bit2E => bit 2 (.reg .e)
  | .bit2H => bit 2 (.reg .h)
  | .bit2L => bit 2 (.reg .l)
  | .bit2IndHl => bit 2 .indHl
  | .bit2A => bit 2 (.reg .a)
  | .bit3B => bit 3 (.reg .b)
  | .bit3C => bit 3 (.reg .c)
  | .bit3D => bit 3 (.reg .d)
  | .bit3E => bit 3 (.reg .e)
  | .bit3H => bit 3 (.reg .h)
  | .bit3L => bit 3 (.reg .l)
  | .bit3IndHl => bit 3 .indHl
  | .bit3A => bit 3 (.reg .a)
  | .bit4B => bit 4 (.reg .b)
  | .bit4C => bit 4 (.reg .c)
  | .bit4D => bit 4 (.reg .d)
  | .bit4E => bit 4 (.reg .e)
  | .bit4H => bit 4 (.reg .h)
  | .bit4L => bit 4 (.reg .l)
  | .bit4IndHl => bit 4 .indHl
  | .bit4A => bit 4 (.reg .a)
  | .bit5B => bit 5 (.reg .b)
  | .bit5C => bit 5 (.reg .c)
  | .bit5D => bit 5 (.reg .d)
  | .bit5E => bit 5 (.reg .e)
  | .bit5H => bit 5 (.reg .h)
  | .bit5L => bit 5 (.reg .l)
  | .bit5IndHl => bit 5 .indHl
  | .bit5A => bit 5 (.reg .a)
  | .bit6B => bit 6 (.reg .b)
  | .bit6C => bit 6 (.reg .c)
  | .bit6D => bit 6 (.reg .d)
  | .bit6E => bit 6 (.reg .e)
  | .bit6H => bit 6 (.reg .h)
  | .bit6L => bit 6 (.reg .l)
  | .bit6IndHl => bit 6 .indHl
  | .bit6A => bit 6 (.reg .a)
  | .bit7B => bit 7 (.reg .b)
  | .bit7C => bit 7 (.reg .c)
  | .bit7D => bit 7 (.reg .d)
  | .bit7E => bit 7 (.reg .e)
  | .bit7H => bit 7 (.reg .h)
  | .bit7L => bit 7 (.reg .l)
  | .bit7IndHl => bit 7 .indHl
  | .bit7A => bit 7 (.reg .a)

end Sys2Proof
end

