-- ==== Sys2Proof/Laws/State.lean ====
section
/-! SUPPORT. One lemma per field per update of the state: what an update writes and that it leaves every other field. -/

namespace Sys2Proof.Machine

variable (s : State)

/-! ### setSp -/

@[simp] theorem State.setSp_a (v : Word) : (s.setSp v).a = s.a := rfl
@[simp] theorem State.setSp_b (v : Word) : (s.setSp v).b = s.b := rfl
@[simp] theorem State.setSp_c (v : Word) : (s.setSp v).c = s.c := rfl
@[simp] theorem State.setSp_d (v : Word) : (s.setSp v).d = s.d := rfl
@[simp] theorem State.setSp_e (v : Word) : (s.setSp v).e = s.e := rfl
@[simp] theorem State.setSp_f (v : Word) : (s.setSp v).f = s.f := rfl
@[simp] theorem State.setSp_h (v : Word) : (s.setSp v).h = s.h := rfl
@[simp] theorem State.setSp_l (v : Word) : (s.setSp v).l = s.l := rfl
@[simp] theorem State.setSp_sp (v : Word) : (s.setSp v).sp = v := rfl
@[simp] theorem State.setSp_pc (v : Word) : (s.setSp v).pc = s.pc := rfl
@[simp] theorem State.setSp_mem (v : Word) : (s.setSp v).mem = s.mem := rfl
@[simp] theorem State.setSp_engine (v : Word) : (s.setSp v).engine = s.engine := rfl
@[simp] theorem State.setSp_config (v : Word) : (s.setSp v).config = s.config := rfl

/-! ### setPc -/

@[simp] theorem State.setPc_a (v : Word) : (s.setPc v).a = s.a := rfl
@[simp] theorem State.setPc_b (v : Word) : (s.setPc v).b = s.b := rfl
@[simp] theorem State.setPc_c (v : Word) : (s.setPc v).c = s.c := rfl
@[simp] theorem State.setPc_d (v : Word) : (s.setPc v).d = s.d := rfl
@[simp] theorem State.setPc_e (v : Word) : (s.setPc v).e = s.e := rfl
@[simp] theorem State.setPc_f (v : Word) : (s.setPc v).f = s.f := rfl
@[simp] theorem State.setPc_h (v : Word) : (s.setPc v).h = s.h := rfl
@[simp] theorem State.setPc_l (v : Word) : (s.setPc v).l = s.l := rfl
@[simp] theorem State.setPc_sp (v : Word) : (s.setPc v).sp = s.sp := rfl
@[simp] theorem State.setPc_pc (v : Word) : (s.setPc v).pc = v := rfl
@[simp] theorem State.setPc_mem (v : Word) : (s.setPc v).mem = s.mem := rfl
@[simp] theorem State.setPc_engine (v : Word) : (s.setPc v).engine = s.engine := rfl
@[simp] theorem State.setPc_config (v : Word) : (s.setPc v).config = s.config := rfl

/-! ### advancePc -/

@[simp] theorem State.advancePc_a (n : Nat) : (s.advancePc n).a = s.a := rfl
@[simp] theorem State.advancePc_b (n : Nat) : (s.advancePc n).b = s.b := rfl
@[simp] theorem State.advancePc_c (n : Nat) : (s.advancePc n).c = s.c := rfl
@[simp] theorem State.advancePc_d (n : Nat) : (s.advancePc n).d = s.d := rfl
@[simp] theorem State.advancePc_e (n : Nat) : (s.advancePc n).e = s.e := rfl
@[simp] theorem State.advancePc_f (n : Nat) : (s.advancePc n).f = s.f := rfl
@[simp] theorem State.advancePc_h (n : Nat) : (s.advancePc n).h = s.h := rfl
@[simp] theorem State.advancePc_l (n : Nat) : (s.advancePc n).l = s.l := rfl
@[simp] theorem State.advancePc_sp (n : Nat) : (s.advancePc n).sp = s.sp := rfl
@[simp] theorem State.advancePc_pc (n : Nat) : (s.advancePc n).pc = s.pc + BitVec.ofNat 16 n := rfl
@[simp] theorem State.advancePc_mem (n : Nat) : (s.advancePc n).mem = s.mem := rfl
@[simp] theorem State.advancePc_engine (n : Nat) : (s.advancePc n).engine = s.engine := rfl
@[simp] theorem State.advancePc_config (n : Nat) : (s.advancePc n).config = s.config := rfl

/-! ### raise -/

@[simp] theorem State.raise_a (r : Fault) : (s.raise r).a = s.a := rfl
@[simp] theorem State.raise_b (r : Fault) : (s.raise r).b = s.b := rfl
@[simp] theorem State.raise_c (r : Fault) : (s.raise r).c = s.c := rfl
@[simp] theorem State.raise_d (r : Fault) : (s.raise r).d = s.d := rfl
@[simp] theorem State.raise_e (r : Fault) : (s.raise r).e = s.e := rfl
@[simp] theorem State.raise_f (r : Fault) : (s.raise r).f = s.f := rfl
@[simp] theorem State.raise_h (r : Fault) : (s.raise r).h = s.h := rfl
@[simp] theorem State.raise_l (r : Fault) : (s.raise r).l = s.l := rfl
@[simp] theorem State.raise_sp (r : Fault) : (s.raise r).sp = s.sp := rfl
@[simp] theorem State.raise_pc (r : Fault) : (s.raise r).pc = s.pc := rfl
@[simp] theorem State.raise_mem (r : Fault) : (s.raise r).mem = s.mem := rfl
@[simp] theorem State.raise_engine (r : Fault) : (s.raise r).engine = .haltedOnError r := rfl
@[simp] theorem State.raise_config (r : Fault) : (s.raise r).config = s.config := rfl

/-! ### setF -/

@[simp] theorem State.setF_a (v : Byte) : (s.setF v).a = s.a := rfl
@[simp] theorem State.setF_b (v : Byte) : (s.setF v).b = s.b := rfl
@[simp] theorem State.setF_c (v : Byte) : (s.setF v).c = s.c := rfl
@[simp] theorem State.setF_d (v : Byte) : (s.setF v).d = s.d := rfl
@[simp] theorem State.setF_e (v : Byte) : (s.setF v).e = s.e := rfl
@[simp] theorem State.setF_f (v : Byte) : (s.setF v).f = flagBits v := rfl
@[simp] theorem State.setF_h (v : Byte) : (s.setF v).h = s.h := rfl
@[simp] theorem State.setF_l (v : Byte) : (s.setF v).l = s.l := rfl
@[simp] theorem State.setF_sp (v : Byte) : (s.setF v).sp = s.sp := rfl
@[simp] theorem State.setF_pc (v : Byte) : (s.setF v).pc = s.pc := rfl
@[simp] theorem State.setF_mem (v : Byte) : (s.setF v).mem = s.mem := rfl
@[simp] theorem State.setF_engine (v : Byte) : (s.setF v).engine = s.engine := rfl
@[simp] theorem State.setF_config (v : Byte) : (s.setF v).config = s.config := rfl

/-! ### setFlags -/

@[simp] theorem State.setFlags_a (mask : Byte) (v : Bool) : (s.setFlags mask v).a = s.a := rfl
@[simp] theorem State.setFlags_b (mask : Byte) (v : Bool) : (s.setFlags mask v).b = s.b := rfl
@[simp] theorem State.setFlags_c (mask : Byte) (v : Bool) : (s.setFlags mask v).c = s.c := rfl
@[simp] theorem State.setFlags_d (mask : Byte) (v : Bool) : (s.setFlags mask v).d = s.d := rfl
@[simp] theorem State.setFlags_e (mask : Byte) (v : Bool) : (s.setFlags mask v).e = s.e := rfl
@[simp] theorem State.setFlags_f (mask : Byte) (v : Bool) : (s.setFlags mask v).f = setFlagBits mask v s.f := rfl
@[simp] theorem State.setFlags_h (mask : Byte) (v : Bool) : (s.setFlags mask v).h = s.h := rfl
@[simp] theorem State.setFlags_l (mask : Byte) (v : Bool) : (s.setFlags mask v).l = s.l := rfl
@[simp] theorem State.setFlags_sp (mask : Byte) (v : Bool) : (s.setFlags mask v).sp = s.sp := rfl
@[simp] theorem State.setFlags_pc (mask : Byte) (v : Bool) : (s.setFlags mask v).pc = s.pc := rfl
@[simp] theorem State.setFlags_mem (mask : Byte) (v : Bool) : (s.setFlags mask v).mem = s.mem := rfl
@[simp] theorem State.setFlags_engine (mask : Byte) (v : Bool) : (s.setFlags mask v).engine = s.engine := rfl
@[simp] theorem State.setFlags_config (mask : Byte) (v : Bool) : (s.setFlags mask v).config = s.config := rfl

/-! ### writeZNH -/

@[simp] theorem State.writeZNH_a (z n h : Bool) : (s.writeZNH z n h).a = s.a := rfl
@[simp] theorem State.writeZNH_b (z n h : Bool) : (s.writeZNH z n h).b = s.b := rfl
@[simp] theorem State.writeZNH_c (z n h : Bool) : (s.writeZNH z n h).c = s.c := rfl
@[simp] theorem State.writeZNH_d (z n h : Bool) : (s.writeZNH z n h).d = s.d := rfl
@[simp] theorem State.writeZNH_e (z n h : Bool) : (s.writeZNH z n h).e = s.e := rfl
@[simp] theorem State.writeZNH_f (z n h : Bool) : (s.writeZNH z n h).f = setFlagBits Flag.h.mask h (setFlagBits Flag.n.mask n (setFlagBits Flag.z.mask z s.f)) := rfl
@[simp] theorem State.writeZNH_h (z n h : Bool) : (s.writeZNH z n h).h = s.h := rfl
@[simp] theorem State.writeZNH_l (z n h : Bool) : (s.writeZNH z n h).l = s.l := rfl
@[simp] theorem State.writeZNH_sp (z n h : Bool) : (s.writeZNH z n h).sp = s.sp := rfl
@[simp] theorem State.writeZNH_pc (z n h : Bool) : (s.writeZNH z n h).pc = s.pc := rfl
@[simp] theorem State.writeZNH_mem (z n h : Bool) : (s.writeZNH z n h).mem = s.mem := rfl
@[simp] theorem State.writeZNH_engine (z n h : Bool) : (s.writeZNH z n h).engine = s.engine := rfl
@[simp] theorem State.writeZNH_config (z n h : Bool) : (s.writeZNH z n h).config = s.config := rfl

/-! ### writeZNHC -/

@[simp] theorem State.writeZNHC_a (z n h c : Bool) : (s.writeZNHC z n h c).a = s.a := rfl
@[simp] theorem State.writeZNHC_b (z n h c : Bool) : (s.writeZNHC z n h c).b = s.b := rfl
@[simp] theorem State.writeZNHC_c (z n h c : Bool) : (s.writeZNHC z n h c).c = s.c := rfl
@[simp] theorem State.writeZNHC_d (z n h c : Bool) : (s.writeZNHC z n h c).d = s.d := rfl
@[simp] theorem State.writeZNHC_e (z n h c : Bool) : (s.writeZNHC z n h c).e = s.e := rfl
@[simp] theorem State.writeZNHC_f (z n h c : Bool) : (s.writeZNHC z n h c).f = setFlagBits Flag.c.mask c (setFlagBits Flag.h.mask h (setFlagBits Flag.n.mask n (setFlagBits Flag.z.mask z s.f))) := rfl
@[simp] theorem State.writeZNHC_h (z n h c : Bool) : (s.writeZNHC z n h c).h = s.h := rfl
@[simp] theorem State.writeZNHC_l (z n h c : Bool) : (s.writeZNHC z n h c).l = s.l := rfl
@[simp] theorem State.writeZNHC_sp (z n h c : Bool) : (s.writeZNHC z n h c).sp = s.sp := rfl
@[simp] theorem State.writeZNHC_pc (z n h c : Bool) : (s.writeZNHC z n h c).pc = s.pc := rfl
@[simp] theorem State.writeZNHC_mem (z n h c : Bool) : (s.writeZNHC z n h c).mem = s.mem := rfl
@[simp] theorem State.writeZNHC_engine (z n h c : Bool) : (s.writeZNHC z n h c).engine = s.engine := rfl
@[simp] theorem State.writeZNHC_config (z n h c : Bool) : (s.writeZNHC z n h c).config = s.config := rfl

/-! ### set8 -/

@[simp] theorem State.set8_f (r : Reg8) (v : Byte) : (s.set8 r v).f = s.f := by cases r <;> rfl
@[simp] theorem State.set8_sp (r : Reg8) (v : Byte) : (s.set8 r v).sp = s.sp := by cases r <;> rfl
@[simp] theorem State.set8_pc (r : Reg8) (v : Byte) : (s.set8 r v).pc = s.pc := by cases r <;> rfl
@[simp] theorem State.set8_mem (r : Reg8) (v : Byte) : (s.set8 r v).mem = s.mem := by cases r <;> rfl
@[simp] theorem State.set8_engine (r : Reg8) (v : Byte) : (s.set8 r v).engine = s.engine := by cases r <;> rfl
@[simp] theorem State.set8_config (r : Reg8) (v : Byte) : (s.set8 r v).config = s.config := by cases r <;> rfl

/-! ### setPair -/

@[simp] theorem State.setPair_sp (p : Pair) (v : Word) : (s.setPair p v).sp = s.sp := by cases p <;> rfl
@[simp] theorem State.setPair_pc (p : Pair) (v : Word) : (s.setPair p v).pc = s.pc := by cases p <;> rfl
@[simp] theorem State.setPair_mem (p : Pair) (v : Word) : (s.setPair p v).mem = s.mem := by cases p <;> rfl
@[simp] theorem State.setPair_engine (p : Pair) (v : Word) : (s.setPair p v).engine = s.engine := by cases p <;> rfl
@[simp] theorem State.setPair_config (p : Pair) (v : Word) : (s.setPair p v).config = s.config := by cases p <;> rfl

/-! ### setPair on HL -/

@[simp] theorem State.setPair_hl_a (v : Word) : (s.setPair .hl v).a = s.a := rfl
@[simp] theorem State.setPair_hl_b (v : Word) : (s.setPair .hl v).b = s.b := rfl
@[simp] theorem State.setPair_hl_c (v : Word) : (s.setPair .hl v).c = s.c := rfl
@[simp] theorem State.setPair_hl_d (v : Word) : (s.setPair .hl v).d = s.d := rfl
@[simp] theorem State.setPair_hl_e (v : Word) : (s.setPair .hl v).e = s.e := rfl
@[simp] theorem State.setPair_hl_f (v : Word) : (s.setPair .hl v).f = s.f := rfl
@[simp] theorem State.setPair_hl_h (v : Word) : (s.setPair .hl v).h = hiByte v := rfl
@[simp] theorem State.setPair_hl_l (v : Word) : (s.setPair .hl v).l = loByte v := rfl

/-! ### setWide -/

@[simp] theorem State.setWide_f (w : Wide) (v : Word) : (s.setWide w v).f = s.f := by cases w <;> rfl
@[simp] theorem State.setWide_pc (w : Wide) (v : Word) : (s.setWide w v).pc = s.pc := by cases w <;> rfl
@[simp] theorem State.setWide_mem (w : Wide) (v : Word) : (s.setWide w v).mem = s.mem := by cases w <;> rfl
@[simp] theorem State.setWide_engine (w : Wide) (v : Word) : (s.setWide w v).engine = s.engine := by cases w <;> rfl
@[simp] theorem State.setWide_config (w : Wide) (v : Word) : (s.setWide w v).config = s.config := by cases w <;> rfl

/-! ### Reading back a register -/

@[simp] theorem State.get8_set8_same (r : Reg8) (v : Byte) : (s.set8 r v).get8 r = v := by cases r <;> rfl

theorem State.get8_set8_other (r q : Reg8) (v : Byte) (h : q ≠ r) : (s.set8 r v).get8 q = s.get8 q := by
  cases r <;> cases q <;> first | rfl | exact absurd rfl h

@[simp] theorem State.get8_setSp (q : Reg8) (v : Word) : (s.setSp v).get8 q = s.get8 q := by cases q <;> rfl
@[simp] theorem State.get8_setPc (q : Reg8) (v : Word) : (s.setPc v).get8 q = s.get8 q := by cases q <;> rfl
@[simp] theorem State.get8_advancePc (q : Reg8) (n : Nat) : (s.advancePc n).get8 q = s.get8 q := by cases q <;> rfl
@[simp] theorem State.get8_raise (q : Reg8) (x : Fault) : (s.raise x).get8 q = s.get8 q := by cases q <;> rfl
@[simp] theorem State.get8_setF (q : Reg8) (v : Byte) : (s.setF v).get8 q = s.get8 q := by cases q <;> rfl
@[simp] theorem State.get8_setFlags (q : Reg8) (m : Byte) (v : Bool) : (s.setFlags m v).get8 q = s.get8 q := by cases q <;> rfl
@[simp] theorem State.get8_writeZNH (q : Reg8) (z n h : Bool) : (s.writeZNH z n h).get8 q = s.get8 q := by cases q <;> rfl
@[simp] theorem State.get8_writeZNHC (q : Reg8) (z n h c : Bool) : (s.writeZNHC z n h c).get8 q = s.get8 q := by cases q <;> rfl

/-! ### Concatenation -/

@[simp] theorem hiByte_wordOf (hi lo : Byte) : hiByte (wordOf hi lo) = hi := by
  apply BitVec.eq_of_getLsbD_eq
  intro i hi'
  simp only [hiByte, wordOf, BitVec.getLsbD_append, BitVec.getLsbD_extractLsb']
  simp [hi']

@[simp] theorem loByte_wordOf (hi lo : Byte) : loByte (wordOf hi lo) = lo := by
  apply BitVec.eq_of_getLsbD_eq
  intro i hi'
  simp only [loByte, wordOf, BitVec.getLsbD_append, BitVec.getLsbD_extractLsb']
  simp [hi']

@[simp] theorem wordOf_hiByte_loByte (v : Word) : wordOf (hiByte v) (loByte v) = v := by
  apply BitVec.eq_of_getLsbD_eq
  intro i hi'
  simp only [hiByte, loByte, wordOf, BitVec.getLsbD_append, BitVec.getLsbD_extractLsb']
  by_cases h : i < 8
  · simp [h]
  · have h8 : 8 + (i - 8) = i := by omega
    simp [h, h8, show i - 8 < 8 by omega]

/-- A pair reads back what was written to it (R22). -/
@[simp] theorem State.getPair_setPair (p : Pair) (hp : p ≠ .af) (v : Word) : (s.setPair p v).getPair p = v := by
  cases p
  case af => exact absurd rfl hp
  all_goals simp [State.setPair, State.getPair]

/-- A 16-bit operand reads back what was written to it. -/
@[simp] theorem State.getWide_setWide (w : Wide) (v : Word) : (s.setWide w v).getWide w = v := by
  cases w <;> simp [State.setWide, State.getWide, State.setSp]

/-! ### The low nibble of F (R27) -/

@[simp] theorem flagBits_low (v : Byte) : flagBits v &&& 0x0F#8 = 0#8 := by
  apply BitVec.eq_of_getLsbD_eq
  intro i hi
  simp only [flagBits, BitVec.getLsbD_and]
  have : i = 0 ∨ i = 1 ∨ i = 2 ∨ i = 3 ∨ i = 4 ∨ i = 5 ∨ i = 6 ∨ i = 7 := by omega
  rcases this with rfl | rfl | rfl | rfl | rfl | rfl | rfl | rfl <;> simp

/-- One write of a flag leaves bits 3:0 alone: its mask is inside 0xF0 (R8, R27). -/
@[simp] theorem setFlagBits_low (fl : Flag) (v : Bool) (f : Byte) : setFlagBits fl.mask v f &&& 0x0F#8 = f &&& 0x0F#8 := by
  apply BitVec.eq_of_getLsbD_eq
  intro i hi
  have : i = 0 ∨ i = 1 ∨ i = 2 ∨ i = 3 ∨ i = 4 ∨ i = 5 ∨ i = 6 ∨ i = 7 := by omega
  cases fl <;> cases v <;> rcases this with rfl | rfl | rfl | rfl | rfl | rfl | rfl | rfl <;>
    simp [setFlagBits, Flag.mask]

/-- The bits of F after one write of a flag: the flag's own bit is the value, every other bit is kept (R25). -/
theorem setFlagBits_bit (fl : Flag) (v : Bool) (f : Byte) (k : Nat) (hk : k < 8) :
    (setFlagBits fl.mask v f).getLsbD k = if fl.mask.getLsbD k then v else f.getLsbD k := by
  have : k = 0 ∨ k = 1 ∨ k = 2 ∨ k = 3 ∨ k = 4 ∨ k = 5 ∨ k = 6 ∨ k = 7 := by omega
  cases fl <;> cases v <;> rcases this with rfl | rfl | rfl | rfl | rfl | rfl | rfl | rfl <;>
    simp [setFlagBits, Flag.mask]

/-! ### setDebug -/

@[simp] theorem State.setDebug_a (on : Bool) : (s.setDebug on).a = s.a := rfl
@[simp] theorem State.setDebug_b (on : Bool) : (s.setDebug on).b = s.b := rfl
@[simp] theorem State.setDebug_c (on : Bool) : (s.setDebug on).c = s.c := rfl
@[simp] theorem State.setDebug_d (on : Bool) : (s.setDebug on).d = s.d := rfl
@[simp] theorem State.setDebug_e (on : Bool) : (s.setDebug on).e = s.e := rfl
@[simp] theorem State.setDebug_f (on : Bool) : (s.setDebug on).f = s.f := rfl
@[simp] theorem State.setDebug_h (on : Bool) : (s.setDebug on).h = s.h := rfl
@[simp] theorem State.setDebug_l (on : Bool) : (s.setDebug on).l = s.l := rfl
@[simp] theorem State.setDebug_sp (on : Bool) : (s.setDebug on).sp = s.sp := rfl
@[simp] theorem State.setDebug_pc (on : Bool) : (s.setDebug on).pc = s.pc := rfl
@[simp] theorem State.setDebug_mem (on : Bool) : (s.setDebug on).mem = s.mem := rfl
@[simp] theorem State.setDebug_engine (on : Bool) : (s.setDebug on).engine = s.engine := rfl
@[simp] theorem State.setDebug_romSize (on : Bool) : (s.setDebug on).config.romSize = s.config.romSize := rfl
@[simp] theorem State.setDebug_accRotateZFromResult (on : Bool) : (s.setDebug on).config.accRotateZFromResult = s.config.accRotateZFromResult := rfl
@[simp] theorem State.setDebug_decidedRowsPresent (on : Bool) : (s.setDebug on).config.decidedRowsPresent = s.config.decidedRowsPresent := rfl
@[simp] theorem State.setDebug_debugEnabled (on : Bool) : (s.setDebug on).config.debugEnabled = on := rfl

end Sys2Proof.Machine
end

