-- ==== Sys2Proof/Laws/DebugSwitch.lean ====
section
/-! SUPPORT. The operations that may raise do the same whatever `DEBUG_ENABLED` is (R266), and so does the fetch. -/

namespace Sys2Proof.Machine

variable (s : State) (on : Bool)

/-! ### Registers and single bytes -/

@[simp] theorem setDebug_get8 (r : Reg8) : (s.setDebug on).get8 r = s.get8 r := by cases r <;> rfl

@[simp] theorem setDebug_getPair (p : Pair) : (s.setDebug on).getPair p = s.getPair p := by cases p <;> rfl

@[simp] theorem setDebug_getWide (w : Wide) : (s.setDebug on).getWide w = s.getWide w := by cases w <;> rfl

@[simp] theorem setDebug_hl : (s.setDebug on).hl = s.hl := rfl

@[simp] theorem setDebug_taken (cc : Option Cond) : (s.setDebug on).taken cc = s.taken cc := by
  rcases cc with _ | cc <;> [rfl; (cases cc <;> rfl)]

@[simp] theorem setDebug_readByte (addr : Word) : (s.setDebug on).readByte addr = s.readByte addr := rfl

theorem setDebug_writeByte (addr : Word) (v : Byte) :
    (s.setDebug on).writeByte addr v = (s.writeByte addr v).map fun t => t.setDebug on := by
  change (match translate s.config addr with
    | none => none
    | some (r, off) => if r.writable then some ({ s with mem := Memory.write s.mem (r.cell off) v }.setDebug on) else none) = _
  unfold State.writeByte
  cases translate s.config addr with
  | none => rfl
  | some place =>
    dsimp only
    split <;> rfl

@[simp] theorem setDebug_lookup (key : Word) : lookup (s.setDebug on).config key = lookup s.config key := rfl

/-! ### Operations that may raise -/

theorem readByteThen_setDebug (addr : Word) {rest rest' : Byte → State} (h : ∀ v, rest' v = (rest v).setDebug on) :
    readByteThen addr (s.setDebug on) rest' = (readByteThen addr s rest).setDebug on := by
  unfold readByteThen
  rw [setDebug_readByte]
  split
  · exact h _
  · rfl

theorem writeByteThen_setDebug (addr : Word) (v : Byte) {rest rest' : State → State}
    (h : ∀ t, rest' (t.setDebug on) = (rest t).setDebug on) :
    writeByteThen addr v (s.setDebug on) rest' = (writeByteThen addr v s rest).setDebug on := by
  unfold writeByteThen
  rw [setDebug_writeByte]
  cases s.writeByte addr v with
  | none => rfl
  | some t => exact h t

theorem pushThen_setDebug (v : Word) {rest rest' : State → State}
    (h : ∀ t, rest' (t.setDebug on) = (rest t).setDebug on) :
    pushThen v (s.setDebug on) rest' = (pushThen v s rest).setDebug on :=
  writeByteThen_setDebug (s.setSp (s.sp - 2)) on _ _ fun t => writeByteThen_setDebug t on _ _ h

theorem popThen_setDebug {rest rest' : Word → State → State}
    (h : ∀ v t, rest' v (t.setDebug on) = (rest v t).setDebug on) :
    popThen (s.setDebug on) rest' = (popThen s rest).setDebug on :=
  readByteThen_setDebug s on _ fun _ => readByteThen_setDebug s on _ fun _ => h _ (s.setSp (s.sp + 2))

theorem readOperandThen_setDebug (o : Operand8) {rest rest' : Byte → State} (h : ∀ v, rest' v = (rest v).setDebug on) :
    readOperandThen o (s.setDebug on) rest' = (readOperandThen o s rest).setDebug on := by
  cases o with
  | reg r => exact (congrArg rest' (setDebug_get8 s on r)).trans (h _)
  | indHl => exact readByteThen_setDebug s on _ h

theorem modifyOperand_setDebug (res : Byte → Byte) {flags flags' : Byte → State → State} (o : Operand8)
    (h : ∀ v t, flags' v (t.setDebug on) = (flags v t).setDebug on) :
    modifyOperand res flags' o (s.setDebug on) = (modifyOperand res flags o s).setDebug on := by
  refine readOperandThen_setDebug s on o fun v => ?_
  cases o with
  | reg r => exact (congrArg (flags' v) (by cases r <;> rfl)).trans (h v (s.set8 r (res v)))
  | indHl => exact writeByteThen_setDebug s on _ _ (h v)

/-! ### The fetch -/

/-- What a fetch ends in, with `DEBUG_ENABLED` as given. -/
def Fetched.setDebug : Fetched → Fetched
  | .instr i t => .instr i (t.setDebug on)
  | .raised t => .raised (t.setDebug on)

theorem fetchOperands_setDebug (row : Row) :
    fetchOperands row (s.setDebug on) = (fetchOperands row s).setDebug on := by
  cases row with
  | noImm i => rfl
  | imm8 make =>
    simp only [fetchOperands, setDebug_readByte, State.setDebug_pc]
    split <;> rfl
  | imm16 make =>
    simp only [fetchOperands, setDebug_readByte, State.setDebug_pc]
    split
    · rfl
    · split <;> rfl

theorem dispatchKey_setDebug (key instrAddr : Word) :
    dispatchKey key instrAddr (s.setDebug on) = (dispatchKey key instrAddr s).setDebug on := by
  unfold dispatchKey
  rw [setDebug_lookup]
  split
  · rfl
  · exact fetchOperands_setDebug s on _

theorem fetch_setDebug : fetch (s.setDebug on) = (fetch s).setDebug on := by
  unfold fetch
  rw [State.setDebug_pc, setDebug_readByte, setDebug_readByte]
  split
  · rfl
  · split
    · split
      · rfl
      · exact dispatchKey_setDebug (s.advancePc 2) on _ _
    · exact dispatchKey_setDebug (s.advancePc 1) on _ _

end Sys2Proof.Machine
end

