-- ==== Sys2Proof/Laws/Memory.lean ====
section
/-! SUPPORT. The list of cells: read after write, the canonical form, and that canonical lists that read alike are equal. -/

namespace Sys2Proof.Machine

namespace Memory

/-- Below the first address of a canonical list every byte is unlisted. -/
theorem read_of_wfAbove {k j : Nat} {m : List Host.Cell} (h : wfAbove k m = true) (hj : j ≤ k) :
    read m j = unlistedByte := by
  induction m generalizing k with
  | nil => rfl
  | cons cell rest ih =>
    obtain ⟨a, v⟩ := cell
    simp only [wfAbove, Bool.and_eq_true, decide_eq_true_eq] at h
    have : j ≠ a := by omega
    simp only [read, if_neg this]
    exact ih h.2 (by omega)

theorem wfAbove_mono {k j : Nat} {m : List Host.Cell} (h : wfAbove k m = true) (hj : j ≤ k) : wfAbove j m = true := by
  cases m with
  | nil => rfl
  | cons cell rest =>
    simp only [wfAbove, Bool.and_eq_true, decide_eq_true_eq] at h ⊢
    exact ⟨⟨by omega, h.1.2⟩, h.2⟩

theorem wf_of_wfAbove {k : Nat} {m : List Host.Cell} (h : wfAbove k m = true) : wf m = true := by
  cases m with
  | nil => rfl
  | cons cell rest =>
    simp only [wfAbove, wf, Bool.and_eq_true] at h ⊢
    exact ⟨h.1.2, h.2⟩

/-- A byte written reads back. -/
theorem read_write_same {m : List Host.Cell} (h : wf m = true) (k : Nat) (v : Byte) : read (write m k v) k = v := by
  induction m with
  | nil => by_cases hv : v = unlistedByte <;> simp [write, read, hv]
  | cons cell rest ih =>
    obtain ⟨a, u⟩ := cell
    simp only [wf, Bool.and_eq_true] at h
    simp only [write]
    split
    · split
      · next hk hv => rw [read_of_wfAbove (k := k) (by simp [wfAbove, hk, h.1, h.2]) (Nat.le_refl k), hv]
      · simp [read]
    · split
      · next hk =>
        subst hk
        split
        · next hv => rw [read_of_wfAbove h.2 (Nat.le_refl _), hv]
        · simp [read]
      · next hk => simp only [read, if_neg hk]; exact ih (wf_of_wfAbove h.2)

/-- Writing one byte leaves every other byte alone. -/
theorem read_write_other (m : List Host.Cell) {k j : Nat} (hj : j ≠ k) (v : Byte) : read (write m k v) j = read m j := by
  induction m with
  | nil => by_cases hv : v = unlistedByte <;> simp [write, read, hv, hj]
  | cons cell rest ih =>
    obtain ⟨a, u⟩ := cell
    simp only [write]
    split
    · split
      · rfl
      · simp [read, hj]
    · split
      · next hk =>
        subst hk
        split <;> simp [read, hj]
      · simp only [read, ih]

theorem wfAbove_write {b k : Nat} {m : List Host.Cell} (h : wfAbove b m = true) (hk : b < k) (v : Byte) :
    wfAbove b (write m k v) = true := by
  induction m generalizing b with
  | nil => by_cases hv : v = unlistedByte <;> simp [write, wfAbove, hv, hk]
  | cons cell rest ih =>
    obtain ⟨a, u⟩ := cell
    simp only [wfAbove, Bool.and_eq_true, decide_eq_true_eq] at h
    simp only [write]
    split
    · split
      · simp [wfAbove, h.1.1, h.1.2, h.2]
      · next hka hv => simp [wfAbove, hk, hka, hv, h.1.2, h.2]
    · split
      · next hka =>
        subst hka
        split
        · exact wfAbove_mono h.2 (by omega)
        · next hv => simp [wfAbove, hk, hv, h.2]
      · simp only [wfAbove, Bool.and_eq_true, decide_eq_true_eq]
        exact ⟨h.1, ih h.2 (by omega)⟩

/-- Writing keeps the canonical form. -/
theorem wf_write {m : List Host.Cell} (h : wf m = true) (k : Nat) (v : Byte) : wf (write m k v) = true := by
  cases m with
  | nil => by_cases hv : v = unlistedByte <;> simp [write, wf, wfAbove, hv]
  | cons cell rest =>
    obtain ⟨a, u⟩ := cell
    simp only [wf, Bool.and_eq_true] at h
    simp only [write]
    split
    · split
      · simp [wf, h.1, h.2]
      · next hka hv => simp [wf, wfAbove, hka, hv, h.1, h.2]
    · split
      · split
        · exact wf_of_wfAbove h.2
        · next hka hv => subst hka; simp [wf, hv, h.2]
      · simp only [wf, Bool.and_eq_true]
        exact ⟨h.1, wfAbove_write h.2 (by omega) v⟩

/-- The cells of a written list are those it had, and perhaps the written one. -/
theorem mem_write {m : List Host.Cell} {k : Nat} {v : Byte} {cell : Host.Cell} (h : cell ∈ write m k v) :
    cell = (k, v) ∨ cell ∈ m := by
  induction m with
  | nil =>
    simp only [write] at h
    split at h
    · cases h
    · exact .inl (List.mem_singleton.mp h)
  | cons head rest ih =>
    obtain ⟨a, u⟩ := head
    simp only [write] at h
    split at h
    · split at h
      · exact .inr h
      · rcases List.mem_cons.mp h with h | h
        · exact .inl h
        · exact .inr h
    · split at h
      · split at h
        · exact .inr (List.mem_cons_of_mem _ h)
        · rcases List.mem_cons.mp h with h | h
          · exact .inl h
          · exact .inr (List.mem_cons_of_mem _ h)
      · rcases List.mem_cons.mp h with h | h
        · exact .inr (h ▸ List.mem_cons_self)
        · rcases ih h with h | h
          · exact .inl h
          · exact .inr (List.mem_cons_of_mem _ h)

theorem eq_of_read_above {k : Nat} {m m' : List Host.Cell} (h : wfAbove k m = true) (h' : wfAbove k m' = true)
    (hr : ∀ j, k < j → read m j = read m' j) : m = m' := by
  induction m generalizing k m' with
  | nil =>
    cases m' with
    | nil => rfl
    | cons cell rest =>
      obtain ⟨a, v⟩ := cell
      simp only [wfAbove, Bool.and_eq_true, decide_eq_true_eq, bne_iff_ne] at h'
      exact absurd (by simpa [read] using (hr a h'.1.1).symm) h'.1.2
  | cons cell rest ih =>
    obtain ⟨a, v⟩ := cell
    simp only [wfAbove, Bool.and_eq_true, decide_eq_true_eq, bne_iff_ne] at h
    cases m' with
    | nil => exact absurd (by simpa [read] using hr a h.1.1) h.1.2
    | cons cell' rest' =>
      obtain ⟨a', v'⟩ := cell'
      simp only [wfAbove, Bool.and_eq_true, decide_eq_true_eq, bne_iff_ne] at h'
      have ha : a = a' := by
        rcases Nat.lt_trichotomy a a' with hlt | heq | hgt
        · have := hr a h.1.1
          simp only [read, if_neg (show a ≠ a' by omega), if_true] at this
          rw [read_of_wfAbove h'.2 (by omega)] at this
          exact absurd this h.1.2
        · exact heq
        · have := hr a' h'.1.1
          simp only [read, if_neg (show a' ≠ a by omega), if_true] at this
          rw [read_of_wfAbove h.2 (by omega)] at this
          exact absurd this.symm h'.1.2
      subst ha
      have hv : v = v' := by simpa [read] using hr a h.1.1
      subst hv
      have : rest = rest' := by
        refine ih h.2 h'.2 fun j hj => ?_
        have := hr j (by omega)
        simpa [read, show j ≠ a by omega] using this
      rw [this]

/-- Canonical lists that read alike are equal: equal memories are equal data. -/
theorem eq_of_read {m m' : List Host.Cell} (h : wf m = true) (h' : wf m' = true) (hr : ∀ j, read m j = read m' j) :
    m = m' := by
  cases m with
  | nil =>
    cases m' with
    | nil => rfl
    | cons cell rest =>
      simp only [wf, Bool.and_eq_true, bne_iff_ne] at h'
      exact absurd (by simpa [read] using (hr cell.1).symm) h'.1
  | cons cell rest =>
    cases m' with
    | nil =>
      simp only [wf, Bool.and_eq_true, bne_iff_ne] at h
      exact absurd (by simpa [read] using hr cell.1) h.1
    | cons cell' rest' =>
      obtain ⟨a, v⟩ := cell
      obtain ⟨a', v'⟩ := cell'
      simp only [wf, Bool.and_eq_true, bne_iff_ne] at h h'
      have ha : a = a' := by
        rcases Nat.lt_trichotomy a a' with hlt | heq | hgt
        · have := hr a
          simp only [read, if_neg (show a ≠ a' by omega), if_true] at this
          rw [read_of_wfAbove h'.2 (by omega)] at this
          exact absurd this h.1
        · exact heq
        · have := hr a'
          simp only [read, if_neg (show a' ≠ a by omega), if_true] at this
          rw [read_of_wfAbove h.2 (by omega)] at this
          exact absurd this.symm h'.1
      subst ha
      have hv : v = v' := by simpa [read] using hr a
      subst hv
      rw [eq_of_read_above h.2 h'.2 fun j hj => by simpa [read, show j ≠ a by omega] using hr j]

/-- Filling keeps the canonical form. -/
theorem wf_fill {m : List Host.Cell} (h : wf m = true) (k : Nat) (bytes : List Byte) : wf (fill m k bytes) = true := by
  induction bytes generalizing m k with
  | nil => exact h
  | cons v rest ih => exact ih (wf_write h k v) (k + 1)

end Memory

/-- Reset memory has the canonical form. -/
theorem wf_reset : Memory.wf State.reset.mem = true := rfl

end Sys2Proof.Machine
end

