-- ==== Sys2Proof/Laws/Ops.lean ====
section
/-! SUPPORT. What the shared operations can do, once each: the translator, one byte read or written, the operations that may
raise, and that they keep the invariant. -/

namespace Sys2Proof.Machine

/-! ### The translator -/

/-- Where an address is translated, the cell it names is the address itself. -/
theorem translate_cell {cfg : Config} {addr : Word} {r : Region} {off : Nat} (h : translate cfg addr = some (r, off)) :
    r.cell off = addr.toNat := by
  simp only [translate] at h
  split at h
  · simp only [Option.some.injEq, Prod.mk.injEq] at h
    obtain ⟨rfl, rfl⟩ := h
    simp [Region.cell, Region.base]
  · split at h
    · simp only [Option.some.injEq, Prod.mk.injEq] at h
      obtain ⟨rfl, rfl⟩ := h
      simp only [Region.cell, Region.base]
      omega
    · split at h
      · simp only [Option.some.injEq, Prod.mk.injEq] at h
        obtain ⟨rfl, rfl⟩ := h
        simp only [Region.cell, Region.base]
        omega
      · simp at h

/-- A region writes exactly when it is not ROM; outside ROM a translated address is storable. -/
theorem translate_spec (cfg : Config) (addr : Word) :
    (addr.toNat < cfg.romSize ∧ translate cfg addr = some (.rom, addr.toNat)) ∨
    (¬ addr.toNat < cfg.romSize ∧ Storable addr ∧ ∃ r off, translate cfg addr = some (r, off) ∧ r.writable = true) ∨
    (¬ addr.toNat < cfg.romSize ∧ ¬ Storable addr ∧ translate cfg addr = none) := by
  by_cases h1 : addr.toNat < cfg.romSize
  · exact .inl ⟨h1, by simp [translate, h1]⟩
  · by_cases h2 : 0x8000 ≤ addr.toNat ∧ addr.toNat ≤ 0x9FFF
    · exact .inr (.inl ⟨h1, .inl h2, .vram, addr.toNat - 0x8000, by simp only [translate, if_neg h1, if_pos h2], rfl⟩)
    · by_cases h3 : 0xFF00 ≤ addr.toNat ∧ addr.toNat ≤ 0xFF7F
      · exact .inr (.inl ⟨h1, .inr h3, .io, addr.toNat - 0xFF00,
          by simp only [translate, if_neg h1, if_neg h2, if_pos h3], rfl⟩)
      · refine .inr (.inr ⟨h1, ?_, by simp only [translate, if_neg h1, if_neg h2, if_neg h3]⟩)
        rintro (h | h)
        · exact h2 h
        · exact h3 h

/-! ### One byte -/

/-- A read depends on the parameters and the memory alone. -/
theorem readByte_congr {s t : State} (hc : t.config = s.config) (hm : t.mem = s.mem) (addr : Word) :
    t.readByte addr = s.readByte addr := by
  simp only [State.readByte, hc, hm]

/-- A readable address reads as its cell (R58). -/
theorem readByte_of_readable {s : State} {addr : Word} (h : Readable s.config addr) :
    s.readByte addr = some (Memory.read s.mem addr.toNat) := by
  rcases translate_spec s.config addr with ⟨-, ht⟩ | ⟨-, -, r, off, ht, -⟩ | ⟨h1, h2, -⟩
  · simp only [State.readByte, ht, translate_cell ht]
  · simp only [State.readByte, ht, translate_cell ht]
  · exact absurd h (by simp [Readable, h1, h2])

/-- An address outside the three regions does not read (R53, R58). -/
theorem readByte_of_not_readable {s : State} {addr : Word} (h : ¬ Readable s.config addr) : s.readByte addr = none := by
  rcases translate_spec s.config addr with ⟨h1, -⟩ | ⟨-, h2, -⟩ | ⟨-, -, ht⟩
  · exact absurd (Or.inl h1) h
  · exact absurd (Or.inr h2) h
  · simp only [State.readByte, ht]

/-- A byte of VRAM or IO outside ROM takes a write of its cell (R59). -/
theorem writeByte_of_storable {s : State} {addr : Word} (hr : ¬ addr.toNat < s.config.romSize) (h : Storable addr)
    (v : Byte) : s.writeByte addr v = some { s with mem := Memory.write s.mem addr.toNat v } := by
  rcases translate_spec s.config addr with ⟨h1, -⟩ | ⟨-, -, r, off, ht, hw⟩ | ⟨-, h2, -⟩
  · exact absurd h1 hr
  · simp only [State.writeByte, ht, hw, if_true, translate_cell ht]
  · exact absurd h h2

/-- A ROM address takes no write (R59). -/
theorem writeByte_of_rom {s : State} {addr : Word} (h : addr.toNat < s.config.romSize) (v : Byte) :
    s.writeByte addr v = none := by
  simp [State.writeByte, translate, h, Region.writable]

/-- An address that is not storable takes no write (R59). -/
theorem writeByte_of_not_storable {s : State} {addr : Word} (h : ¬ Storable addr) (v : Byte) :
    s.writeByte addr v = none := by
  rcases translate_spec s.config addr with ⟨h1, -⟩ | ⟨-, h2, -⟩ | ⟨-, -, ht⟩
  · exact writeByte_of_rom h1 v
  · exact absurd h2 h
  · simp only [State.writeByte, ht]

/-- In a machine with a legal `ROM_SIZE` a storable address is not in ROM (R51). -/
theorem not_rom_of_storable {cfg : Config} (hc : cfg.wf = true) {addr : Word} (h : Storable addr) :
    ¬ addr.toNat < cfg.romSize := by
  simp only [Config.wf, Bool.and_eq_true, decide_eq_true_eq] at hc
  rcases h with h | h <;> omega

/-- All a write of one byte can do: it answers the state with that one cell written, and only where the address is a
storable byte outside ROM. -/
theorem writeByte_eq_some {s t : State} {addr : Word} {v : Byte} (h : s.writeByte addr v = some t) :
    ¬ addr.toNat < s.config.romSize ∧ Storable addr ∧ t = { s with mem := Memory.write s.mem addr.toNat v } := by
  by_cases hr : addr.toNat < s.config.romSize
  · simp [writeByte_of_rom hr] at h
  · by_cases hs : Storable addr
    · rw [writeByte_of_storable hr hs] at h
      exact ⟨hr, hs, (Option.some.inj h).symm⟩
    · simp [writeByte_of_not_storable hs] at h

/-- A byte written reads back at its address (R68). -/
theorem readByte_writeByte_same {s t : State} {addr : Word} {v : Byte} (hm : Memory.wf s.mem = true)
    (h : s.writeByte addr v = some t) : t.readByte addr = some v := by
  obtain ⟨-, hs, rfl⟩ := writeByte_eq_some h
  rw [readByte_of_readable (.inr hs), Memory.read_write_same hm]

/-- Every other byte is as before (R68). -/
theorem readByte_writeByte_other {s t : State} {addr other : Word} {v : Byte} (h : s.writeByte addr v = some t)
    (ho : other ≠ addr) : t.readByte other = s.readByte other := by
  obtain ⟨-, -, rfl⟩ := writeByte_eq_some h
  by_cases hr : Readable s.config other
  · rw [readByte_of_readable (s := s) hr, readByte_of_readable (by exact hr)]
    rw [Memory.read_write_other _ fun he => ho (BitVec.eq_of_toNat_eq he)]
  · rw [readByte_of_not_readable (s := s) hr, readByte_of_not_readable (by exact hr)]

/-! ### Operations that may raise -/

/-- All a byte read followed by the rest of an instruction can do. -/
theorem readByteThen_cases (addr : Word) (s : State) (rest : Byte → State) :
    (∃ v, s.readByte addr = some v ∧ readByteThen addr s rest = rest v) ∨
    (s.readByte addr = none ∧ readByteThen addr s rest = s.raise (.unmappedAddressError addr)) := by
  cases h : s.readByte addr with
  | none => exact .inr ⟨rfl, by simp only [readByteThen, h]⟩
  | some v => exact .inl ⟨v, rfl, by simp only [readByteThen, h]⟩

/-- All a byte write followed by the rest of an instruction can do. -/
theorem writeByteThen_cases (addr : Word) (v : Byte) (s : State) (rest : State → State) :
    (∃ t, s.writeByte addr v = some t ∧ writeByteThen addr v s rest = rest t) ∨
    (s.writeByte addr v = none ∧ writeByteThen addr v s rest = s.raise (.unmappedAddressError addr)) := by
  cases h : s.writeByte addr v with
  | none => exact .inr ⟨rfl, by simp only [writeByteThen, h]⟩
  | some t => exact .inl ⟨t, rfl, by simp only [writeByteThen, h]⟩

theorem readByteThen_some {addr : Word} {s : State} {v : Byte} (h : s.readByte addr = some v) (rest : Byte → State) :
    readByteThen addr s rest = rest v := by simp only [readByteThen, h]

theorem readByteThen_none {addr : Word} {s : State} (h : s.readByte addr = none) (rest : Byte → State) :
    readByteThen addr s rest = s.raise (.unmappedAddressError addr) := by simp only [readByteThen, h]

theorem writeByteThen_some {addr : Word} {v : Byte} {s t : State} (h : s.writeByte addr v = some t)
    (rest : State → State) : writeByteThen addr v s rest = rest t := by simp only [writeByteThen, h]

theorem writeByteThen_none {addr : Word} {v : Byte} {s : State} (h : s.writeByte addr v = none) (rest : State → State) :
    writeByteThen addr v s rest = s.raise (.unmappedAddressError addr) := by simp only [writeByteThen, h]

/-! ### The invariant -/

/-- The invariant is about the parameters, the low nibble of F and the memory. -/
theorem State.Inv.of_eq {s t : State} (h : s.Inv) (hc : t.config = s.config) (hf : t.f &&& 0x0F#8 = 0#8)
    (hm : t.mem = s.mem) : t.Inv :=
  ⟨hc ▸ h.romSize, hf, hm ▸ h.canonical, fun cell hcell => hc ▸ h.inRegions cell (hm ▸ hcell)⟩

theorem State.Inv.raise {s : State} (h : s.Inv) (r : Fault) : (s.raise r).Inv := h.of_eq rfl h.lowNibble rfl

theorem State.Inv.setPc {s : State} (h : s.Inv) (t : Word) : (s.setPc t).Inv := h.of_eq rfl h.lowNibble rfl

theorem State.Inv.setSp {s : State} (h : s.Inv) (v : Word) : (s.setSp v).Inv := h.of_eq rfl h.lowNibble rfl

theorem State.Inv.advancePc {s : State} (h : s.Inv) (n : Nat) : (s.advancePc n).Inv := h.of_eq rfl h.lowNibble rfl

theorem State.Inv.set8 {s : State} (h : s.Inv) (r : Reg8) (v : Byte) : (s.set8 r v).Inv :=
  h.of_eq (by simp) ((State.set8_f s r v).symm ▸ h.lowNibble) (by simp)

theorem State.Inv.setPair {s : State} (h : s.Inv) (p : Pair) (v : Word) : (s.setPair p v).Inv := by
  refine h.of_eq (by simp) ?_ (by simp)
  cases p
  case af => exact flagBits_low _
  all_goals exact h.lowNibble

theorem State.Inv.setWide {s : State} (h : s.Inv) (w : Wide) (v : Word) : (s.setWide w v).Inv := by
  cases w with
  | bc => exact h.setPair .bc v
  | de => exact h.setPair .de v
  | hl => exact h.setPair .hl v
  | sp => exact h.setSp v

theorem State.Inv.writeZNH {s : State} (h : s.Inv) (z n hc : Bool) : (s.writeZNH z n hc).Inv :=
  h.of_eq rfl (by simpa using h.lowNibble) rfl

theorem State.Inv.writeZNHC {s : State} (h : s.Inv) (z n hc c : Bool) : (s.writeZNHC z n hc c).Inv :=
  h.of_eq rfl (by simpa using h.lowNibble) rfl

theorem State.Inv.writeByte {s t : State} (h : s.Inv) {addr : Word} {v : Byte} (hw : s.writeByte addr v = some t) :
    t.Inv := by
  obtain ⟨-, hs, rfl⟩ := writeByte_eq_some hw
  refine ⟨h.romSize, h.lowNibble, Memory.wf_write h.canonical _ _, fun cell hcell => ?_⟩
  rcases Memory.mem_write hcell with rfl | hcell
  · refine ⟨addr.isLt, .inr ?_⟩
    show Storable (BitVec.ofNat 16 addr.toNat)
    simpa using hs
  · exact h.inRegions cell hcell

theorem readByteThen_inv {s : State} (h : s.Inv) (addr : Word) {rest : Byte → State} (hr : ∀ v, (rest v).Inv) :
    (readByteThen addr s rest).Inv := by
  rcases readByteThen_cases addr s rest with ⟨v, -, e⟩ | ⟨-, e⟩ <;> rw [e]
  · exact hr v
  · exact h.raise _

theorem writeByteThen_inv {s : State} (h : s.Inv) (addr : Word) (v : Byte) {rest : State → State}
    (hr : ∀ t, t.Inv → (rest t).Inv) : (writeByteThen addr v s rest).Inv := by
  rcases writeByteThen_cases addr v s rest with ⟨t, ht, e⟩ | ⟨-, e⟩ <;> rw [e]
  · exact hr t (h.writeByte ht)
  · exact h.raise _

theorem readWordThen_inv {s : State} (h : s.Inv) (addr : Word) {rest : Word → State} (hr : ∀ v, (rest v).Inv) :
    (readWordThen addr s rest).Inv :=
  readByteThen_inv h _ fun _ => readByteThen_inv h _ fun _ => hr _

theorem writeWordThen_inv {s : State} (h : s.Inv) (addr v : Word) {rest : State → State}
    (hr : ∀ t, t.Inv → (rest t).Inv) : (writeWordThen addr v s rest).Inv :=
  writeByteThen_inv h _ _ fun _ ht => writeByteThen_inv ht _ _ hr

theorem pushThen_inv {s : State} (h : s.Inv) (v : Word) {rest : State → State} (hr : ∀ t, t.Inv → (rest t).Inv) :
    (pushThen v s rest).Inv := writeWordThen_inv (h.setSp _) _ _ hr

theorem popThen_inv {s : State} (h : s.Inv) {rest : Word → State → State} (hr : ∀ v t, t.Inv → (rest v t).Inv) :
    (popThen s rest).Inv := readWordThen_inv h _ fun v => hr v _ (h.setSp _)

theorem readOperandThen_inv {s : State} (h : s.Inv) (o : Operand8) {rest : Byte → State} (hr : ∀ v, (rest v).Inv) :
    (readOperandThen o s rest).Inv := by
  cases o with
  | reg r => exact hr _
  | indHl => exact readByteThen_inv h _ hr

theorem writeOperandThen_inv {s : State} (h : s.Inv) (o : Operand8) (v : Byte) {rest : State → State}
    (hr : ∀ t, t.Inv → (rest t).Inv) : (writeOperandThen o v s rest).Inv := by
  cases o with
  | reg r => exact hr _ (h.set8 r v)
  | indHl => exact writeByteThen_inv h _ _ hr

theorem modifyOperand_inv {s : State} (h : s.Inv) (res : Byte → Byte) {flags : Byte → State → State} (o : Operand8)
    (hf : ∀ v t, t.Inv → (flags v t).Inv) : (modifyOperand res flags o s).Inv :=
  readOperandThen_inv h o fun v => writeOperandThen_inv h o _ (hf v)

end Sys2Proof.Machine
end

