-- ==== Sys2Proof/Laws/Effects.lean ====
section
/-! SUPPORT. What each shared operation of the families leaves unchanged, and the flags as bits of F. -/

namespace Sys2Proof.Machine

/-! ### Flags as bits of F (R24) -/

theorem flag_z (s : State) : s.flag .z = s.f.getLsbD 7 := by
  have h : ∀ f : Byte, ((f &&& 0x80#8) != 0) = f.getLsbD 7 := by decide +revert
  exact h s.f

theorem flag_n (s : State) : s.flag .n = s.f.getLsbD 6 := by
  have h : ∀ f : Byte, ((f &&& 0x40#8) != 0) = f.getLsbD 6 := by decide +revert
  exact h s.f

theorem flag_h (s : State) : s.flag .h = s.f.getLsbD 5 := by
  have h : ∀ f : Byte, ((f &&& 0x20#8) != 0) = f.getLsbD 5 := by decide +revert
  exact h s.f

theorem flag_c (s : State) : s.flag .c = s.f.getLsbD 4 := by
  have h : ∀ f : Byte, ((f &&& 0x10#8) != 0) = f.getLsbD 4 := by decide +revert
  exact h s.f

theorem cin_eq (s : State) : s.cin = s.f.getLsbD 4 := flag_c s

/-- A condition is taken exactly when the bit of F says so (R98). -/
theorem taken_iff (s : State) (cc : Option Cond) : s.taken cc = true ↔ CondHolds s cc := by
  rcases cc with _ | cond
  · simp [State.taken, CondHolds]
  · cases cond <;> simp [State.taken, State.cond, CondHolds, flag_z, flag_c]

theorem taken_false_iff (s : State) (cc : Option Cond) : s.taken cc = false ↔ ¬ CondHolds s cc := by
  rw [← taken_iff, Bool.not_eq_true]

/-- The three writes of INC, DEC and BIT as bits: Carry and bits 3:0 are kept (R25). -/
theorem flagsAre_writeZNH {s t : State} (hf : t.f = s.f) (z n h : Bool) :
    FlagsAre s (t.writeZNH z n h) (z = true) (n = true) (h = true) (CarrySet s) := by
  constructor
  case low =>
    intro k hk
    have : k = 0 ∨ k = 1 ∨ k = 2 ∨ k = 3 := by omega
    rcases this with rfl | rfl | rfl | rfl <;>
      (simp (disch := omega) only [State.writeZNH_f, setFlagBits_bit, hf]; simp [Flag.mask])
  all_goals (simp (disch := omega) only [State.writeZNH_f, setFlagBits_bit, hf]; simp [Flag.mask])

/-- The four writes of the other flag rules as bits: bits 3:0 are kept (R25, R27). -/
theorem flagsAre_writeZNHC {s t : State} (hf : t.f = s.f) (z n h c : Bool) :
    FlagsAre s (t.writeZNHC z n h c) (z = true) (n = true) (h = true) (c = true) := by
  constructor
  case low =>
    intro k hk
    have : k = 0 ∨ k = 1 ∨ k = 2 ∨ k = 3 := by omega
    rcases this with rfl | rfl | rfl | rfl <;>
      (simp (disch := omega) only [State.writeZNHC_f, setFlagBits_bit, hf]; simp [Flag.mask])
  all_goals (simp (disch := omega) only [State.writeZNHC_f, setFlagBits_bit, hf]; simp [Flag.mask])

theorem FlagsAre.congr {s t : State} {z n h c z' n' h' c' : Prop} (w : FlagsAre s t z n h c) (hz : z ↔ z') (hn : n ↔ n')
    (hh : h ↔ h') (hc : c ↔ c') : FlagsAre s t z' n' h' c' :=
  ⟨w.zero.trans hz, w.subtract.trans hn, w.half.trans hh, w.carry.trans hc, w.low⟩

/-- HL as the statements write it (R21). -/
theorem hl_eq (s : State) : s.hl = hlAddress s := rfl

/-- HL after a write of the pair HL (R22). -/
theorem hlAddress_setPair (s : State) (v : Word) : hlAddress (s.setPair .hl v) = v := State.getPair_setPair s .hl (by decide) v

/-! ### Frames -/

/-- An update that keeps the memory, the engine and the parameters is framed by the registers it may write. -/
theorem Frame.of_fields {s t : State} {regs : List Reg8} (hr : ∀ r, r ∉ regs → t.get8 r = s.get8 r) (hm : t.mem = s.mem)
    (he : t.engine = s.engine) (hc : t.config = s.config) (stored : List Word) : Frame s t regs stored :=
  ⟨hr, fun addr _ => readByte_congr hc hm addr, he, hc⟩

theorem Frame.trans {s t u : State} {regs regs' : List Reg8} {stored stored' : List Word} (h : Frame s t regs stored)
    (h' : Frame t u regs' stored') : Frame s u (regs ++ regs') (stored ++ stored') := by
  refine ⟨fun r hr => ?_, fun addr ha => ?_, h'.engine.trans h.engine, h'.config.trans h.config⟩
  · simp only [List.mem_append, not_or] at hr
    rw [h'.regs r hr.2, h.regs r hr.1]
  · simp only [List.mem_append, not_or] at ha
    rw [h'.memory addr ha.2, h.memory addr ha.1]

theorem Frame.mono {s t : State} {regs regs' : List Reg8} {stored stored' : List Word} (h : Frame s t regs stored)
    (hr : regs ⊆ regs') (hs : stored ⊆ stored') : Frame s t regs' stored' :=
  ⟨fun r hn => h.regs r fun hm => hn (hr hm), fun addr hn => h.memory addr fun hm => hn (hs hm), h.engine, h.config⟩

/-- A write of one register changes no other. -/
theorem frame_set8 (s : State) (r : Reg8) (v : Byte) : Frame s (s.set8 r v) [r] [] :=
  .of_fields (fun q hq => State.get8_set8_other s r q v (by simpa using hq)) (by simp) (by simp) (by simp) _

/-- A write of a pair changes its own registers alone (R22). -/
theorem frame_setPair (s : State) (p : Pair) (v : Word) : Frame s (s.setPair p v) (pairRegs p) [] := by
  refine .of_fields (fun q hq => ?_) (by simp) (by simp) (by simp) _
  cases p <;> cases q <;> first | rfl | exact absurd hq (by simp [pairRegs])

/-- A write of a 16-bit operand changes its own registers alone (R22, R97). -/
theorem frame_setWide (s : State) (w : Wide) (v : Word) : Frame s (s.setWide w v) (wideRegs w) [] := by
  cases w
  · exact frame_setPair s .bc v
  · exact frame_setPair s .de v
  · exact frame_setPair s .hl v
  · exact .of_fields (fun q _ => State.get8_setSp s q v) rfl rfl rfl _

/-- A byte write is framed by its own address (R68). -/
theorem frame_writeByte {s t : State} {addr : Word} {v : Byte} (h : s.writeByte addr v = some t) : Frame s t [] [addr] := by
  refine ⟨fun r _ => ?_, fun other ho => readByte_writeByte_other h (by simpa using ho), ?_, ?_⟩
  all_goals (obtain ⟨-, -, rfl⟩ := writeByte_eq_some h)
  · cases r <;> rfl
  · rfl
  · rfl

/-- A byte write leaves F, SP and PC alone. -/
theorem writeByte_fields {s t : State} {addr : Word} {v : Byte} (h : s.writeByte addr v = some t) :
    t.f = s.f ∧ t.sp = s.sp ∧ t.pc = s.pc ∧ t.engine = s.engine ∧ t.config = s.config ∧ ∀ r, t.get8 r = s.get8 r := by
  obtain ⟨-, -, rfl⟩ := writeByte_eq_some h
  exact ⟨rfl, rfl, rfl, rfl, rfl, fun r => by cases r <;> rfl⟩

/-- In a machine with a legal `ROM_SIZE` a byte write answers exactly at a byte of VRAM or IO (R59). -/
theorem writeByte_isSome_iff {s : State} (hc : s.config.wf = true) (addr : Word) (v : Byte) :
    (∃ t, s.writeByte addr v = some t) ↔ Storable addr :=
  ⟨fun ⟨_, h⟩ => (writeByte_eq_some h).2.1, fun h => ⟨_, writeByte_of_storable (not_rom_of_storable hc h) h v⟩⟩

/-- In a machine with a legal `ROM_SIZE` a byte reads exactly at an address of the three regions (R53, R58). -/
theorem readByte_eq_none_iff (s : State) (addr : Word) : s.readByte addr = none ↔ ¬ Readable s.config addr := by
  by_cases h : Readable s.config addr
  · simp [readByte_of_readable h, h]
  · simp [readByte_of_not_readable h, h]

/-! ### Operands -/

/-- An operand with a value is read, and the rest goes on with it (R10). -/
theorem readOperandThen_some {o : Operand8} {s : State} {v : Byte} (h : operandValue s o = some v) (rest : Byte → State) :
    readOperandThen o s rest = rest v := by
  cases o with
  | reg r => obtain rfl := Option.some.inj h; rfl
  | indHl => exact readByteThen_some h rest

/-- An operand without one is (HL) unmapped, and the read faults there (R10, R242). -/
theorem readOperandThen_none {o : Operand8} {s : State} (h : operandValue s o = none) (rest : Byte → State) :
    readOperandThen o s rest = s.raise (.unmappedAddressError (hlAddress s)) := by
  cases o with
  | reg r => cases h
  | indHl => exact readByteThen_none h rest

/-- All that modifying an operand can do: an operand that can be written is, and the flags come after; otherwise the fault is
at HL and nothing has changed (R64, R233). -/
theorem modifyOperand_spec {s : State} (h : s.Inv) (o : Operand8) (res : Byte → Byte) (flags : Byte → State → State) :
    (∀ v, operandValue s o = some v → OperandStorable s o →
      ∃ t, modifyOperand res flags o s = flags v t ∧ operandValue t o = some (res v) ∧ t.f = s.f ∧ t.sp = s.sp ∧
        t.pc = s.pc ∧ Frame s t (operandRegs o) (operandCells s o)) ∧
    (¬ OperandStorable s o → modifyOperand res flags o s = s.raise (.unmappedAddressError (hlAddress s))) := by
  cases o with
  | reg r =>
    refine ⟨fun v hv _ => ?_, fun hn => absurd trivial hn⟩
    obtain rfl := Option.some.inj hv
    exact ⟨_, rfl, by simp [operandValue], by simp, by simp, by simp, frame_set8 _ _ _⟩
  | indHl =>
    refine ⟨fun v hv hs => ?_, fun hs => ?_⟩
    · obtain ⟨t, ht⟩ := (writeByte_isSome_iff h.romSize _ (res v)).2 hs
      obtain ⟨hf, hsp, hpc, -, -, hr⟩ := writeByte_fields ht
      refine ⟨t, ?_, ?_, hf, hsp, hpc, frame_writeByte ht⟩
      · rw [modifyOperand, readOperandThen, hl_eq, readByteThen_some hv, writeOperandThen, hl_eq, writeByteThen_some ht]
      · have hh : t.h = s.h := hr .h
        have hl : t.l = s.l := hr .l
        have ha : hlAddress t = hlAddress s := by simp only [hlAddress, hh, hl]
        rw [operandValue, ha]
        exact readByte_writeByte_same h.canonical ht
    · rw [modifyOperand, readOperandThen, hl_eq]
      rcases readByteThen_cases (hlAddress s) s (fun v => writeOperandThen .indHl (res v) s (flags v)) with ⟨v, -, e⟩ | ⟨-, e⟩
      · rw [e, writeOperandThen, hl_eq, writeByteThen_none (writeByte_of_not_storable hs _)]
      · rw [e]

/-! ### The stack operations -/

/-- All a push followed by the rest of an instruction can do (R210): both bytes are stored; or the fault is at the new SP; or
at the byte after it, with the low byte stored. -/
theorem pushThen_cases (v : Word) (s : State) (rest : State → State) :
    (∃ t u, (s.setSp (s.sp - 2)).writeByte (s.sp - 2) (loByte v) = some t ∧
      t.writeByte (s.sp - 1) (hiByte v) = some u ∧ pushThen v s rest = rest u) ∨
    ((s.setSp (s.sp - 2)).writeByte (s.sp - 2) (loByte v) = none ∧
      pushThen v s rest = (s.setSp (s.sp - 2)).raise (.unmappedAddressError (s.sp - 2))) ∨
    (∃ t, (s.setSp (s.sp - 2)).writeByte (s.sp - 2) (loByte v) = some t ∧ t.writeByte (s.sp - 1) (hiByte v) = none ∧
      pushThen v s rest = t.raise (.unmappedAddressError (s.sp - 1))) := by
  have ha : s.sp - 2 + 1 = s.sp - 1 := by bv_omega
  simp only [pushThen, writeWordThen, ha]
  rcases writeByteThen_cases (s.sp - 2) (loByte v) (s.setSp (s.sp - 2))
    (fun t => writeByteThen (s.sp - 1) (hiByte v) t rest) with ⟨t, ht, e⟩ | ⟨hn, e⟩
  · rw [e]
    rcases writeByteThen_cases (s.sp - 1) (hiByte v) t rest with ⟨u, hu, e'⟩ | ⟨hn, e'⟩
    · exact .inl ⟨t, u, ht, hu, e'⟩
    · exact .inr (.inr ⟨t, ht, hn, e'⟩)
  · exact .inr (.inl ⟨hn, e⟩)

/-- Where SP lets a push succeed (R284) both bytes are stored, SP is down by two, and nothing else has changed. -/
theorem pushThen_stores {s : State} (h : s.Inv) (v : Word) (hp : Pushable s.sp) :
    ∃ u, (∀ rest, pushThen v s rest = rest u) ∧ u.Inv ∧ u.sp = s.sp - 2 ∧ u.pc = s.pc ∧ u.f = s.f ∧
      u.readByte (s.sp - 2) = some (loByte v) ∧ u.readByte (s.sp - 1) = some (hiByte v) ∧
      Frame s u [] [s.sp - 2, s.sp - 1] := by
  have h1 : Storable (s.sp - 2) := by unfold Pushable at hp; unfold Storable; bv_omega
  have h2 : Storable (s.sp - 1) := by unfold Pushable at hp; unfold Storable; bv_omega
  have hne : s.sp - 2 ≠ s.sp - 1 := by bv_omega
  have hi : (s.setSp (s.sp - 2)).Inv := h.setSp _
  obtain ⟨t, ht⟩ := (writeByte_isSome_iff hi.romSize (s.sp - 2) (loByte v)).2 h1
  have hit : t.Inv := hi.writeByte ht
  obtain ⟨u, hu⟩ := (writeByte_isSome_iff hit.romSize (s.sp - 1) (hiByte v)).2 h2
  obtain ⟨hf, hsp, hpc, he, hc, hr⟩ := writeByte_fields ht
  obtain ⟨hf', hsp', hpc', he', hc', hr'⟩ := writeByte_fields hu
  refine ⟨u, fun rest => ?_, hit.writeByte hu, by rw [hsp', hsp]; rfl, by rw [hpc', hpc]; rfl, by rw [hf', hf]; rfl, ?_,
    readByte_writeByte_same hit.canonical hu, ?_⟩
  · rcases pushThen_cases v s rest with ⟨t', u', ht', hu', e⟩ | ⟨hn, e⟩ | ⟨t', ht', hn, e⟩
    · rw [ht] at ht'; cases ht'
      rw [hu] at hu'; cases hu'
      exact e
    · rw [ht] at hn; cases hn
    · rw [ht] at ht'; cases ht'
      rw [hu] at hn; cases hn
  · rw [readByte_writeByte_other hu hne]
    exact readByte_writeByte_same hi.canonical ht
  · refine ⟨fun q _ => by rw [hr', hr]; simp, fun a ha => ?_, by rw [he', he]; rfl, by rw [hc', hc]; rfl⟩
    simp only [List.mem_cons, List.not_mem_nil, not_or, or_false] at ha
    rw [readByte_writeByte_other hu ha.2, readByte_writeByte_other ht ha.1]
    exact readByte_congr rfl rfl _

/-- All a pop followed by the rest of an instruction can do (R212). -/
theorem popThen_cases (s : State) (rest : Word → State → State) :
    (∃ lo hi, s.readByte s.sp = some lo ∧ s.readByte (s.sp + 1) = some hi ∧
      popThen s rest = rest (wordOf hi lo) (s.setSp (s.sp + 2))) ∨
    (s.readByte s.sp = none ∧ popThen s rest = s.raise (.unmappedAddressError s.sp)) ∨
    (∃ lo, s.readByte s.sp = some lo ∧ s.readByte (s.sp + 1) = none ∧
      popThen s rest = s.raise (.unmappedAddressError (s.sp + 1))) := by
  simp only [popThen, readWordThen]
  rcases readByteThen_cases s.sp s (fun lo => readByteThen (s.sp + 1) s fun hi => rest (wordOf hi lo) (s.setSp (s.sp + 2)))
    with ⟨lo, hlo, e⟩ | ⟨hn, e⟩
  · rw [e]
    rcases readByteThen_cases (s.sp + 1) s (fun hi => rest (wordOf hi lo) (s.setSp (s.sp + 2))) with ⟨hi, hhi, e'⟩ | ⟨hn, e'⟩
    · exact .inl ⟨lo, hi, hlo, hhi, e'⟩
    · exact .inr (.inr ⟨lo, hlo, hn, e'⟩)
  · exact .inr (.inl ⟨hn, e⟩)

end Sys2Proof.Machine
end

