-- ==== Sys2Proof/Laws/PerInstr.lean ====
section
/-! SUPPORT. Per instruction: the dispatch table holds its row under its key, the row makes the instruction from its
immediate bytes, and the row's basis is the instruction's. -/

namespace Sys2Proof.Laws.Lookup

/-- The decoder's table and the encoder's agree on one instruction (R92, R93, R103). -/
def Statement (i : Instr) : Prop :=
  ∃ row, dispatchTable i.key = some row ∧ (∀ rest, row.apply (i.operandBytes ++ rest) = some (i, rest)) ∧
    row.decided = i.decided

/-- The two bytes of an immediate word give the word back. -/
theorem apply_imm16 (make : Word → Instr) (v : Word) (rest : List Byte) :
    Row.apply (.imm16 make) ([loByte v, hiByte v] ++ rest) = some (make v, rest) := by
  simp [Row.apply, Machine.wordOf_hiByte_loByte]

theorem ldBcD16 (v : Word) : Statement (.ldBcD16 v) := by
  refine ⟨_, (rfl : dispatchTable 0x0001 = _), fun rest => ?_, ?_⟩; exacts [apply_imm16 _ v rest, rfl]
theorem ldIndBcA : Statement .ldIndBcA := ⟨_, rfl, fun _ => rfl, rfl⟩
theorem incBc : Statement .incBc := ⟨_, rfl, fun _ => rfl, rfl⟩
theorem incB : Statement .incB := ⟨_, rfl, fun _ => rfl, rfl⟩
theorem decB : Statement .decB := ⟨_, rfl, fun _ => rfl, rfl⟩
theorem ldBD8 (v : Byte) : Statement (.ldBD8 v) := by
  refine ⟨_, (rfl : dispatchTable 0x0006 = _), fun rest => ?_, ?_⟩; exacts [rfl, rfl]
theorem rlcaAcc : Statement .rlcaAcc := ⟨_, rfl, fun _ => rfl, rfl⟩
theorem ldAIndBc : Statement .ldAIndBc := ⟨_, rfl, fun _ => rfl, rfl⟩
theorem decBc : Statement .decBc := ⟨_, rfl, fun _ => rfl, rfl⟩
theorem incC : Statement .incC := ⟨_, rfl, fun _ => rfl, rfl⟩
theorem decC : Statement .decC := ⟨_, rfl, fun _ => rfl, rfl⟩
theorem ldCD8 (v : Byte) : Statement (.ldCD8 v) := by
  refine ⟨_, (rfl : dispatchTable 0x000E = _), fun rest => ?_, ?_⟩; exacts [rfl, rfl]
theorem rrcaAcc : Statement .rrcaAcc := ⟨_, rfl, fun _ => rfl, rfl⟩
theorem ldDeD16 (v : Word) : Statement (.ldDeD16 v) := by
  refine ⟨_, (rfl : dispatchTable 0x0011 = _), fun rest => ?_, ?_⟩; exacts [apply_imm16 _ v rest, rfl]
theorem ldIndDeA : Statement .ldIndDeA := ⟨_, rfl, fun _ => rfl, rfl⟩
theorem incDe : Statement .incDe := ⟨_, rfl, fun _ => rfl, rfl⟩
theorem incD : Statement .incD := ⟨_, rfl, fun _ => rfl, rfl⟩
theorem decD : Statement .decD := ⟨_, rfl, fun _ => rfl, rfl⟩
theorem ldDD8 (v : Byte) : Statement (.ldDD8 v) := by
  refine ⟨_, (rfl : dispatchTable 0x0016 = _), fun rest => ?_, ?_⟩; exacts [rfl, rfl]
theorem rlaAcc : Statement .rlaAcc := ⟨_, rfl, fun _ => rfl, rfl⟩
theorem jrE8 (v : Byte) : Statement (.jrE8 v) := by
  refine ⟨_, (rfl : dispatchTable 0x0018 = _), fun rest => ?_, ?_⟩; exacts [rfl, rfl]
theorem ldAIndDe : Statement .ldAIndDe := ⟨_, rfl, fun _ => rfl, rfl⟩
theorem decDe : Statement .decDe := ⟨_, rfl, fun _ => rfl, rfl⟩
theorem incE : Statement .incE := ⟨_, rfl, fun _ => rfl, rfl⟩
theorem decE : Statement .decE := ⟨_, rfl, fun _ => rfl, rfl⟩
theorem ldED8 (v : Byte) : Statement (.ldED8 v) := by
  refine ⟨_, (rfl : dispatchTable 0x001E = _), fun rest => ?_, ?_⟩; exacts [rfl, rfl]
theorem rraAcc : Statement .rraAcc := ⟨_, rfl, fun _ => rfl, rfl⟩
theorem jrNzE8 (v : Byte) : Statement (.jrNzE8 v) := by
  refine ⟨_, (rfl : dispatchTable 0x0020 = _), fun rest => ?_, ?_⟩; exacts [rfl, rfl]
theorem ldHlD16 (v : Word) : Statement (.ldHlD16 v) := by
  refine ⟨_, (rfl : dispatchTable 0x0021 = _), fun rest => ?_, ?_⟩; exacts [apply_imm16 _ v rest, rfl]
theorem ldIndHlIncA : Statement .ldIndHlIncA := ⟨_, rfl, fun _ => rfl, rfl⟩
theorem incHl : Statement .incHl := ⟨_, rfl, fun _ => rfl, rfl⟩
theorem incH : Statement .incH := ⟨_, rfl, fun _ => rfl, rfl⟩
theorem decH : Statement .decH := ⟨_, rfl, fun _ => rfl, rfl⟩
theorem ldHD8 (v : Byte) : Statement (.ldHD8 v) := by
  refine ⟨_, (rfl : dispatchTable 0x0026 = _), fun rest => ?_, ?_⟩; exacts [rfl, rfl]
theorem jrZE8 (v : Byte) : Statement (.jrZE8 v) := by
  refine ⟨_, (rfl : dispatchTable 0x0028 = _), fun rest => ?_, ?_⟩; exacts [rfl, rfl]
theorem ldAIndHlInc : Statement .ldAIndHlInc := ⟨_, rfl, fun _ => rfl, rfl⟩
theorem decHl : Statement .decHl := ⟨_, rfl, fun _ => rfl, rfl⟩
theorem incL : Statement .incL := ⟨_, rfl, fun _ => rfl, rfl⟩
theorem decL : Statement .decL := ⟨_, rfl, fun _ => rfl, rfl⟩
theorem ldLD8 (v : Byte) : Statement (.ldLD8 v) := by
  refine ⟨_, (rfl : dispatchTable 0x002E = _), fun rest => ?_, ?_⟩; exacts [rfl, rfl]
theorem jrNcE8 (v : Byte) : Statement (.jrNcE8 v) := by
  refine ⟨_, (rfl : dispatchTable 0x0030 = _), fun rest => ?_, ?_⟩; exacts [rfl, rfl]
theorem ldSpD16 (v : Word) : Statement (.ldSpD16 v) := by
  refine ⟨_, (rfl : dispatchTable 0x0031 = _), fun rest => ?_, ?_⟩; exacts [apply_imm16 _ v rest, rfl]
theorem ldIndHlDecA : Statement .ldIndHlDecA := ⟨_, rfl, fun _ => rfl, rfl⟩
theorem incSp : Statement .incSp := ⟨_, rfl, fun _ => rfl, rfl⟩
theorem incIndHl : Statement .incIndHl := ⟨_, rfl, fun _ => rfl, rfl⟩
theorem decIndHl : Statement .decIndHl := ⟨_, rfl, fun _ => rfl, rfl⟩
theorem ldIndHlD8 (v : Byte) : Statement (.ldIndHlD8 v) := by
  refine ⟨_, (rfl : dispatchTable 0x0036 = _), fun rest => ?_, ?_⟩; exacts [rfl, rfl]
theorem jrCE8 (v : Byte) : Statement (.jrCE8 v) := by
  refine ⟨_, (rfl : dispatchTable 0x0038 = _), fun rest => ?_, ?_⟩; exacts [rfl, rfl]
theorem ldAIndHlDec : Statement .ldAIndHlDec := ⟨_, rfl, fun _ => rfl, rfl⟩
theorem decSp : Statement .decSp := ⟨_, rfl, fun _ => rfl, rfl⟩
theorem incA : Statement .incA := ⟨_, rfl, fun _ => rfl, rfl⟩
theorem decA : Statement .decA := ⟨_, rfl, fun _ => rfl, rfl⟩
theorem ldAD8 (v : Byte) : Statement (.ldAD8 v) := by
  refine ⟨_, (rfl : dispatchTable 0x003E = _), fun rest => ?_, ?_⟩; exacts [rfl, rfl]
theorem ldBB : Statement .ldBB := ⟨_, rfl, fun _ => rfl, rfl⟩
theorem ldBC : Statement .ldBC := ⟨_, rfl, fun _ => rfl, rfl⟩
theorem ldBD : Statement .ldBD := ⟨_, rfl, fun _ => rfl, rfl⟩
theorem ldBE : Statement .ldBE := ⟨_, rfl, fun _ => rfl, rfl⟩
theorem ldBH : Statement .ldBH := ⟨_, rfl, fun _ => rfl, rfl⟩
theorem ldBL : Statement .ldBL := ⟨_, rfl, fun _ => rfl, rfl⟩
theorem ldBIndHl : Statement .ldBIndHl := ⟨_, rfl, fun _ => rfl, rfl⟩
theorem ldBA : Statement .ldBA := ⟨_, rfl, fun _ => rfl, rfl⟩
theorem ldCB : Statement .ldCB := ⟨_, rfl, fun _ => rfl, rfl⟩
theorem ldCC : Statement .ldCC := ⟨_, rfl, fun _ => rfl, rfl⟩
theorem ldCD : Statement .ldCD := ⟨_, rfl, fun _ => rfl, rfl⟩
theorem ldCE : Statement .ldCE := ⟨_, rfl, fun _ => rfl, rfl⟩
theorem ldCH : Statement .ldCH := ⟨_, rfl, fun _ => rfl, rfl⟩
theorem ldCL : Statement .ldCL := ⟨_, rfl, fun _ => rfl, rfl⟩
theorem ldCIndHl : Statement .ldCIndHl := ⟨_, rfl, fun _ => rfl, rfl⟩
theorem ldCA : Statement .ldCA := ⟨_, rfl, fun _ => rfl, rfl⟩
theorem ldDB : Statement .ldDB := ⟨_, rfl, fun _ => rfl, rfl⟩
theorem ldDC : Statement .ldDC := ⟨_, rfl, fun _ => rfl, rfl⟩
theorem ldDD : Statement .ldDD := ⟨_, rfl, fun _ => rfl, rfl⟩
theorem ldDE : Statement .ldDE := ⟨_, rfl, fun _ => rfl, rfl⟩
theorem ldDH : Statement .ldDH := ⟨_, rfl, fun _ => rfl, rfl⟩
theorem ldDL : Statement .ldDL := ⟨_, rfl, fun _ => rfl, rfl⟩
theorem ldDIndHl : Statement .ldDIndHl := ⟨_, rfl, fun _ => rfl, rfl⟩
theorem ldDA : Statement .ldDA := ⟨_, rfl, fun _ => rfl, rfl⟩
theorem ldEB : Statement .ldEB := ⟨_, rfl, fun _ => rfl, rfl⟩
theorem ldEC : Statement .ldEC := ⟨_, rfl, fun _ => rfl, rfl⟩
theorem ldED : Statement .ldED := ⟨_, rfl, fun _ => rfl, rfl⟩
theorem ldEE : Statement .ldEE := ⟨_, rfl, fun _ => rfl, rfl⟩
theorem ldEH : Statement .ldEH := ⟨_, rfl, fun _ => rfl, rfl⟩
theorem ldEL : Statement .ldEL := ⟨_, rfl, fun _ => rfl, rfl⟩
theorem ldEIndHl : Statement .ldEIndHl := ⟨_, rfl, fun _ => rfl, rfl⟩
theorem ldEA : Statement .ldEA := ⟨_, rfl, fun _ => rfl, rfl⟩
theorem ldHB : Statement .ldHB := ⟨_, rfl, fun _ => rfl, rfl⟩
theorem ldHC : Statement .ldHC := ⟨_, rfl, fun _ => rfl, rfl⟩
theorem ldHD : Statement .ldHD := ⟨_, rfl, fun _ => rfl, rfl⟩
theorem ldHE : Statement .ldHE := ⟨_, rfl, fun _ => rfl, rfl⟩
theorem ldHH : Statement .ldHH := ⟨_, rfl, fun _ => rfl, rfl⟩
theorem ldHL : Statement .ldHL := ⟨_, rfl, fun _ => rfl, rfl⟩
theorem ldHIndHl : Statement .ldHIndHl := ⟨_, rfl, fun _ => rfl, rfl⟩
theorem ldHA : Statement .ldHA := ⟨_, rfl, fun _ => rfl, rfl⟩
theorem ldLB : Statement .ldLB := ⟨_, rfl, fun _ => rfl, rfl⟩
theorem ldLC : Statement .ldLC := ⟨_, rfl, fun _ => rfl, rfl⟩
theorem ldLD : Statement .ldLD := ⟨_, rfl, fun _ => rfl, rfl⟩
theorem ldLE : Statement .ldLE := ⟨_, rfl, fun _ => rfl, rfl⟩
theorem ldLH : Statement .ldLH := ⟨_, rfl, fun _ => rfl, rfl⟩
theorem ldLL : Statement .ldLL := ⟨_, rfl, fun _ => rfl, rfl⟩
theorem ldLIndHl : Statement .ldLIndHl := ⟨_, rfl, fun _ => rfl, rfl⟩
theorem ldLA : Statement .ldLA := ⟨_, rfl, fun _ => rfl, rfl⟩
theorem ldIndHlB : Statement .ldIndHlB := ⟨_, rfl, fun _ => rfl, rfl⟩
theorem ldIndHlC : Statement .ldIndHlC := ⟨_, rfl, fun _ => rfl, rfl⟩
theorem ldIndHlD : Statement .ldIndHlD := ⟨_, rfl, fun _ => rfl, rfl⟩
theorem ldIndHlE : Statement .ldIndHlE := ⟨_, rfl, fun _ => rfl, rfl⟩
theorem ldIndHlH : Statement .ldIndHlH := ⟨_, rfl, fun _ => rfl, rfl⟩
theorem ldIndHlL : Statement .ldIndHlL := ⟨_, rfl, fun _ => rfl, rfl⟩
theorem ldIndHlA : Statement .ldIndHlA := ⟨_, rfl, fun _ => rfl, rfl⟩
theorem ldAB : Statement .ldAB := ⟨_, rfl, fun _ => rfl, rfl⟩
theorem ldAC : Statement .ldAC := ⟨_, rfl, fun _ => rfl, rfl⟩
theorem ldAD : Statement .ldAD := ⟨_, rfl, fun _ => rfl, rfl⟩
theorem ldAE : Statement .ldAE := ⟨_, rfl, fun _ => rfl, rfl⟩
theorem ldAH : Statement .ldAH := ⟨_, rfl, fun _ => rfl, rfl⟩
theorem ldAL : Statement .ldAL := ⟨_, rfl, fun _ => rfl, rfl⟩
theorem ldAIndHl : Statement .ldAIndHl := ⟨_, rfl, fun _ => rfl, rfl⟩
theorem ldAA : Statement .ldAA := ⟨_, rfl, fun _ => rfl, rfl⟩
theorem addAB : Statement .addAB := ⟨_, rfl, fun _ => rfl, rfl⟩
theorem addAC : Statement .addAC := ⟨_, rfl, fun _ => rfl, rfl⟩
theorem addAD : Statement .addAD := ⟨_, rfl, fun _ => rfl, rfl⟩
theorem addAE : Statement .addAE := ⟨_, rfl, fun _ => rfl, rfl⟩
theorem addAH : Statement .addAH := ⟨_, rfl, fun _ => rfl, rfl⟩
theorem addAL : Statement .addAL := ⟨_, rfl, fun _ => rfl, rfl⟩
theorem addAIndHl : Statement .addAIndHl := ⟨_, rfl, fun _ => rfl, rfl⟩
theorem addAA : Statement .addAA := ⟨_, rfl, fun _ => rfl, rfl⟩
theorem subB : Statement .subB := ⟨_, rfl, fun _ => rfl, rfl⟩
theorem subC : Statement .subC := ⟨_, rfl, fun _ => rfl, rfl⟩
theorem subD : Statement .subD := ⟨_, rfl, fun _ => rfl, rfl⟩
theorem subE : Statement .subE := ⟨_, rfl, fun _ => rfl, rfl⟩
theorem subH : Statement .subH := ⟨_, rfl, fun _ => rfl, rfl⟩
theorem subL : Statement .subL := ⟨_, rfl, fun _ => rfl, rfl⟩
theorem subIndHl : Statement .subIndHl := ⟨_, rfl, fun _ => rfl, rfl⟩
theorem subA : Statement .subA := ⟨_, rfl, fun _ => rfl, rfl⟩
theorem andB : Statement .andB := ⟨_, rfl, fun _ => rfl, rfl⟩
theorem andC : Statement .andC := ⟨_, rfl, fun _ => rfl, rfl⟩
theorem andD : Statement .andD := ⟨_, rfl, fun _ => rfl, rfl⟩
theorem andE : Statement .andE := ⟨_, rfl, fun _ => rfl, rfl⟩
theorem andH : Statement .andH := ⟨_, rfl, fun _ => rfl, rfl⟩
theorem andL : Statement .andL := ⟨_, rfl, fun _ => rfl, rfl⟩
theorem andIndHl : Statement .andIndHl := ⟨_, rfl, fun _ => rfl, rfl⟩
theorem andA : Statement .andA := ⟨_, rfl, fun _ => rfl, rfl⟩
theorem xorB : Statement .xorB := ⟨_, rfl, fun _ => rfl, rfl⟩
theorem xorC : Statement .xorC := ⟨_, rfl, fun _ => rfl, rfl⟩
theorem xorD : Statement .xorD := ⟨_, rfl, fun _ => rfl, rfl⟩
theorem xorE : Statement .xorE := ⟨_, rfl, fun _ => rfl, rfl⟩
theorem xorH : Statement .xorH := ⟨_, rfl, fun _ => rfl, rfl⟩
theorem xorL : Statement .xorL := ⟨_, rfl, fun _ => rfl, rfl⟩
theorem xorIndHl : Statement .xorIndHl := ⟨_, rfl, fun _ => rfl, rfl⟩
theorem xorA : Statement .xorA := ⟨_, rfl, fun _ => rfl, rfl⟩
theorem orB : Statement .orB := ⟨_, rfl, fun _ => rfl, rfl⟩
theorem orC : Statement .orC := ⟨_, rfl, fun _ => rfl, rfl⟩
theorem orD : Statement .orD := ⟨_, rfl, fun _ => rfl, rfl⟩
theorem orE : Statement .orE := ⟨_, rfl, fun _ => rfl, rfl⟩
theorem orH : Statement .orH := ⟨_, rfl, fun _ => rfl, rfl⟩
theorem orL : Statement .orL := ⟨_, rfl, fun _ => rfl, rfl⟩
theorem orIndHl : Statement .orIndHl := ⟨_, rfl, fun _ => rfl, rfl⟩
theorem orA : Statement .orA := ⟨_, rfl, fun _ => rfl, rfl⟩
theorem cpB : Statement .cpB := ⟨_, rfl, fun _ => rfl, rfl⟩
theorem cpC : Statement .cpC := ⟨_, rfl, fun _ => rfl, rfl⟩
theorem cpD : Statement .cpD := ⟨_, rfl, fun _ => rfl, rfl⟩
theorem cpE : Statement .cpE := ⟨_, rfl, fun _ => rfl, rfl⟩
theorem cpH : Statement .cpH := ⟨_, rfl, fun _ => rfl, rfl⟩
theorem cpL : Statement .cpL := ⟨_, rfl, fun _ => rfl, rfl⟩
theorem cpIndHl : Statement .cpIndHl := ⟨_, rfl, fun _ => rfl, rfl⟩
theorem cpA : Statement .cpA := ⟨_, rfl, fun _ => rfl, rfl⟩
theorem retNz : Statement .retNz := ⟨_, rfl, fun _ => rfl, rfl⟩
theorem popBc : Statement .popBc := ⟨_, rfl, fun _ => rfl, rfl⟩
theorem jpNzA16 (v : Word) : Statement (.jpNzA16 v) := by
  refine ⟨_, (rfl : dispatchTable 0x00C2 = _), fun rest => ?_, ?_⟩; exacts [apply_imm16 _ v rest, rfl]
theorem jpA16 (v : Word) : Statement (.jpA16 v) := by
  refine ⟨_, (rfl : dispatchTable 0x00C3 = _), fun rest => ?_, ?_⟩; exacts [apply_imm16 _ v rest, rfl]
theorem callNzA16 (v : Word) : Statement (.callNzA16 v) := by
  refine ⟨_, (rfl : dispatchTable 0x00C4 = _), fun rest => ?_, ?_⟩; exacts [apply_imm16 _ v rest, rfl]
theorem pushBc : Statement .pushBc := ⟨_, rfl, fun _ => rfl, rfl⟩
theorem addAD8 (v : Byte) : Statement (.addAD8 v) := by
  refine ⟨_, (rfl : dispatchTable 0x00C6 = _), fun rest => ?_, ?_⟩; exacts [rfl, rfl]
theorem retZ : Statement .retZ := ⟨_, rfl, fun _ => rfl, rfl⟩
theorem ret : Statement .ret := ⟨_, rfl, fun _ => rfl, rfl⟩
theorem jpZA16 (v : Word) : Statement (.jpZA16 v) := by
  refine ⟨_, (rfl : dispatchTable 0x00CA = _), fun rest => ?_, ?_⟩; exacts [apply_imm16 _ v rest, rfl]
theorem callZA16 (v : Word) : Statement (.callZA16 v) := by
  refine ⟨_, (rfl : dispatchTable 0x00CC = _), fun rest => ?_, ?_⟩; exacts [apply_imm16 _ v rest, rfl]
theorem callA16 (v : Word) : Statement (.callA16 v) := by
  refine ⟨_, (rfl : dispatchTable 0x00CD = _), fun rest => ?_, ?_⟩; exacts [apply_imm16 _ v rest, rfl]
theorem retNc : Statement .retNc := ⟨_, rfl, fun _ => rfl, rfl⟩
theorem popDe : Statement .popDe := ⟨_, rfl, fun _ => rfl, rfl⟩
theorem jpNcA16 (v : Word) : Statement (.jpNcA16 v) := by
  refine ⟨_, (rfl : dispatchTable 0x00D2 = _), fun rest => ?_, ?_⟩; exacts [apply_imm16 _ v rest, rfl]
theorem callNcA16 (v : Word) : Statement (.callNcA16 v) := by
  refine ⟨_, (rfl : dispatchTable 0x00D4 = _), fun rest => ?_, ?_⟩; exacts [apply_imm16 _ v rest, rfl]
theorem pushDe : Statement .pushDe := ⟨_, rfl, fun _ => rfl, rfl⟩
theorem subD8 (v : Byte) : Statement (.subD8 v) := by
  refine ⟨_, (rfl : dispatchTable 0x00D6 = _), fun rest => ?_, ?_⟩; exacts [rfl, rfl]
theorem retC : Statement .retC := ⟨_, rfl, fun _ => rfl, rfl⟩
theorem jpCA16 (v : Word) : Statement (.jpCA16 v) := by
  refine ⟨_, (rfl : dispatchTable 0x00DA = _), fun rest => ?_, ?_⟩; exacts [apply_imm16 _ v rest, rfl]
theorem callCA16 (v : Word) : Statement (.callCA16 v) := by
  refine ⟨_, (rfl : dispatchTable 0x00DC = _), fun rest => ?_, ?_⟩; exacts [apply_imm16 _ v rest, rfl]
theorem ldhIndA8A (v : Byte) : Statement (.ldhIndA8A v) := by
  refine ⟨_, (rfl : dispatchTable 0x00E0 = _), fun rest => ?_, ?_⟩; exacts [rfl, rfl]
theorem popHl : Statement .popHl := ⟨_, rfl, fun _ => rfl, rfl⟩
theorem ldIndCA : Statement .ldIndCA := ⟨_, rfl, fun _ => rfl, rfl⟩
theorem pushHl : Statement .pushHl := ⟨_, rfl, fun _ => rfl, rfl⟩
theorem andD8 (v : Byte) : Statement (.andD8 v) := by
  refine ⟨_, (rfl : dispatchTable 0x00E6 = _), fun rest => ?_, ?_⟩; exacts [rfl, rfl]
theorem jpHl : Statement .jpHl := ⟨_, rfl, fun _ => rfl, rfl⟩
theorem ldIndA16A (v : Word) : Statement (.ldIndA16A v) := by
  refine ⟨_, (rfl : dispatchTable 0x00EA = _), fun rest => ?_, ?_⟩; exacts [apply_imm16 _ v rest, rfl]
theorem xorD8 (v : Byte) : Statement (.xorD8 v) := by
  refine ⟨_, (rfl : dispatchTable 0x00EE = _), fun rest => ?_, ?_⟩; exacts [rfl, rfl]
theorem ldhAIndA8 (v : Byte) : Statement (.ldhAIndA8 v) := by
  refine ⟨_, (rfl : dispatchTable 0x00F0 = _), fun rest => ?_, ?_⟩; exacts [rfl, rfl]
theorem popAf : Statement .popAf := ⟨_, rfl, fun _ => rfl, rfl⟩
theorem ldAIndC : Statement .ldAIndC := ⟨_, rfl, fun _ => rfl, rfl⟩
theorem pushAf : Statement .pushAf := ⟨_, rfl, fun _ => rfl, rfl⟩
theorem orD8 (v : Byte) : Statement (.orD8 v) := by
  refine ⟨_, (rfl : dispatchTable 0x00F6 = _), fun rest => ?_, ?_⟩; exacts [rfl, rfl]
theorem ldAIndA16 (v : Word) : Statement (.ldAIndA16 v) := by
  refine ⟨_, (rfl : dispatchTable 0x00FA = _), fun rest => ?_, ?_⟩; exacts [apply_imm16 _ v rest, rfl]
theorem cpD8 (v : Byte) : Statement (.cpD8 v) := by
  refine ⟨_, (rfl : dispatchTable 0x00FE = _), fun rest => ?_, ?_⟩; exacts [rfl, rfl]
theorem rlcB : Statement .rlcB := ⟨_, rfl, fun _ => rfl, rfl⟩
theorem rlcC : Statement .rlcC := ⟨_, rfl, fun _ => rfl, rfl⟩
theorem rlcD : Statement .rlcD := ⟨_, rfl, fun _ => rfl, rfl⟩
theorem rlcE : Statement .rlcE := ⟨_, rfl, fun _ => rfl, rfl⟩
theorem rlcH : Statement .rlcH := ⟨_, rfl, fun _ => rfl, rfl⟩
theorem rlcL : Statement .rlcL := ⟨_, rfl, fun _ => rfl, rfl⟩
theorem rlcIndHl : Statement .rlcIndHl := ⟨_, rfl, fun _ => rfl, rfl⟩
theorem rlcA : Statement .rlcA := ⟨_, rfl, fun _ => rfl, rfl⟩
theorem rrcB : Statement .rrcB := ⟨_, rfl, fun _ => rfl, rfl⟩
theorem rrcC : Statement .rrcC := ⟨_, rfl, fun _ => rfl, rfl⟩
theorem rrcD : Statement .rrcD := ⟨_, rfl, fun _ => rfl, rfl⟩
theorem rrcE : Statement .rrcE := ⟨_, rfl, fun _ => rfl, rfl⟩
theorem rrcH : Statement .rrcH := ⟨_, rfl, fun _ => rfl, rfl⟩
theorem rrcL : Statement .rrcL := ⟨_, rfl, fun _ => rfl, rfl⟩
theorem rrcIndHl : Statement .rrcIndHl := ⟨_, rfl, fun _ => rfl, rfl⟩
theorem rrcA : Statement .rrcA := ⟨_, rfl, fun _ => rfl, rfl⟩
theorem rlB : Statement .rlB := ⟨_, rfl, fun _ => rfl, rfl⟩
theorem rlC : Statement .rlC := ⟨_, rfl, fun _ => rfl, rfl⟩
theorem rlD : Statement .rlD := ⟨_, rfl, fun _ => rfl, rfl⟩
theorem rlE : Statement .rlE := ⟨_, rfl, fun _ => rfl, rfl⟩
theorem rlH : Statement .rlH := ⟨_, rfl, fun _ => rfl, rfl⟩
theorem rlL : Statement .rlL := ⟨_, rfl, fun _ => rfl, rfl⟩
theorem rlIndHl : Statement .rlIndHl := ⟨_, rfl, fun _ => rfl, rfl⟩
theorem rlA : Statement .rlA := ⟨_, rfl, fun _ => rfl, rfl⟩
theorem rrB : Statement .rrB := ⟨_, rfl, fun _ => rfl, rfl⟩
theorem rrC : Statement .rrC := ⟨_, rfl, fun _ => rfl, rfl⟩
theorem rrD : Statement .rrD := ⟨_, rfl, fun _ => rfl, rfl⟩
theorem rrE : Statement .rrE := ⟨_, rfl, fun _ => rfl, rfl⟩
theorem rrH : Statement .rrH := ⟨_, rfl, fun _ => rfl, rfl⟩
theorem rrL : Statement .rrL := ⟨_, rfl, fun _ => rfl, rfl⟩
theorem rrIndHl : Statement .rrIndHl := ⟨_, rfl, fun _ => rfl, rfl⟩
theorem rrA : Statement .rrA := ⟨_, rfl, fun _ => rfl, rfl⟩
theorem slaB : Statement .slaB := ⟨_, rfl, fun _ => rfl, rfl⟩
theorem slaC : Statement .slaC := ⟨_, rfl, fun _ => rfl, rfl⟩
theorem slaD : Statement .slaD := ⟨_, rfl, fun _ => rfl, rfl⟩
theorem slaE : Statement .slaE := ⟨_, rfl, fun _ => rfl, rfl⟩
theorem slaH : Statement .slaH := ⟨_, rfl, fun _ => rfl, rfl⟩
theorem slaL : Statement .slaL := ⟨_, rfl, fun _ => rfl, rfl⟩
theorem slaIndHl : Statement .slaIndHl := ⟨_, rfl, fun _ => rfl, rfl⟩
theorem slaA : Statement .slaA := ⟨_, rfl, fun _ => rfl, rfl⟩
theorem sraB : Statement .sraB := ⟨_, rfl, fun _ => rfl, rfl⟩
theorem sraC : Statement .sraC := ⟨_, rfl, fun _ => rfl, rfl⟩
theorem sraD : Statement .sraD := ⟨_, rfl, fun _ => rfl, rfl⟩
theorem sraE : Statement .sraE := ⟨_, rfl, fun _ => rfl, rfl⟩
theorem sraH : Statement .sraH := ⟨_, rfl, fun _ => rfl, rfl⟩
theorem sraL : Statement .sraL := ⟨_, rfl, fun _ => rfl, rfl⟩
theorem sraIndHl : Statement .sraIndHl := ⟨_, rfl, fun _ => rfl, rfl⟩
theorem sraA : Statement .sraA := ⟨_, rfl, fun _ => rfl, rfl⟩
theorem srlB : Statement .srlB := ⟨_, rfl, fun _ => rfl, rfl⟩
theorem srlC : Statement .srlC := ⟨_, rfl, fun _ => rfl, rfl⟩
theorem srlD : Statement .srlD := ⟨_, rfl, fun _ => rfl, rfl⟩
theorem srlE : Statement .srlE := ⟨_, rfl, fun _ => rfl, rfl⟩
theorem srlH : Statement .srlH := ⟨_, rfl, fun _ => rfl, rfl⟩
theorem srlL : Statement .srlL := ⟨_, rfl, fun _ => rfl, rfl⟩
theorem srlIndHl : Statement .srlIndHl := ⟨_, rfl, fun _ => rfl, rfl⟩
theorem srlA : Statement .srlA := ⟨_, rfl, fun _ => rfl, rfl⟩
theorem bit0B : Statement .bit0B := ⟨_, rfl, fun _ => rfl, rfl⟩
theorem bit0C : Statement .bit0C := ⟨_, rfl, fun _ => rfl, rfl⟩
theorem bit0D : Statement .bit0D := ⟨_, rfl, fun _ => rfl, rfl⟩
theorem bit0E : Statement .bit0E := ⟨_, rfl, fun _ => rfl, rfl⟩
theorem bit0H : Statement .bit0H := ⟨_, rfl, fun _ => rfl, rfl⟩
theorem bit0L : Statement .bit0L := ⟨_, rfl, fun _ => rfl, rfl⟩
theorem bit0IndHl : Statement .bit0IndHl := ⟨_, rfl, fun _ => rfl, rfl⟩
theorem bit0A : Statement .bit0A := ⟨_, rfl, fun _ => rfl, rfl⟩
theorem bit1B : Statement .bit1B := ⟨_, rfl, fun _ => rfl, rfl⟩
theorem bit1C : Statement .bit1C := ⟨_, rfl, fun _ => rfl, rfl⟩
theorem bit1D : Statement .bit1D := ⟨_, rfl, fun _ => rfl, rfl⟩
theorem bit1E : Statement .bit1E := ⟨_, rfl, fun _ => rfl, rfl⟩
theorem bit1H : Statement .bit1H := ⟨_, rfl, fun _ => rfl, rfl⟩
theorem bit1L : Statement .bit1L := ⟨_, rfl, fun _ => rfl, rfl⟩
theorem bit1IndHl : Statement .bit1IndHl := ⟨_, rfl, fun _ => rfl, rfl⟩
theorem bit1A : Statement .bit1A := ⟨_, rfl, fun _ => rfl, rfl⟩
theorem bit2B : Statement .bit2B := ⟨_, rfl, fun _ => rfl, rfl⟩
theorem bit2C : Statement .bit2C := ⟨_, rfl, fun _ => rfl, rfl⟩
theorem bit2D : Statement .bit2D := ⟨_, rfl, fun _ => rfl, rfl⟩
theorem bit2E : Statement .bit2E := ⟨_, rfl, fun _ => rfl, rfl⟩
theorem bit2H : Statement .bit2H := ⟨_, rfl, fun _ => rfl, rfl⟩
theorem bit2L : Statement .bit2L := ⟨_, rfl, fun _ => rfl, rfl⟩
theorem bit2IndHl : Statement .bit2IndHl := ⟨_, rfl, fun _ => rfl, rfl⟩
theorem bit2A : Statement .bit2A := ⟨_, rfl, fun _ => rfl, rfl⟩
theorem bit3B : Statement .bit3B := ⟨_, rfl, fun _ => rfl, rfl⟩
theorem bit3C : Statement .bit3C := ⟨_, rfl, fun _ => rfl, rfl⟩
theorem bit3D : Statement .bit3D := ⟨_, rfl, fun _ => rfl, rfl⟩
theorem bit3E : Statement .bit3E := ⟨_, rfl, fun _ => rfl, rfl⟩
theorem bit3H : Statement .bit3H := ⟨_, rfl, fun _ => rfl, rfl⟩
theorem bit3L : Statement .bit3L := ⟨_, rfl, fun _ => rfl, rfl⟩
theorem bit3IndHl : Statement .bit3IndHl := ⟨_, rfl, fun _ => rfl, rfl⟩
theorem bit3A : Statement .bit3A := ⟨_, rfl, fun _ => rfl, rfl⟩
theorem bit4B : Statement .bit4B := ⟨_, rfl, fun _ => rfl, rfl⟩
theorem bit4C : Statement .bit4C := ⟨_, rfl, fun _ => rfl, rfl⟩
theorem bit4D : Statement .bit4D := ⟨_, rfl, fun _ => rfl, rfl⟩
theorem bit4E : Statement .bit4E := ⟨_, rfl, fun _ => rfl, rfl⟩
theorem bit4H : Statement .bit4H := ⟨_, rfl, fun _ => rfl, rfl⟩
theorem bit4L : Statement .bit4L := ⟨_, rfl, fun _ => rfl, rfl⟩
theorem bit4IndHl : Statement .bit4IndHl := ⟨_, rfl, fun _ => rfl, rfl⟩
theorem bit4A : Statement .bit4A := ⟨_, rfl, fun _ => rfl, rfl⟩
theorem bit5B : Statement .bit5B := ⟨_, rfl, fun _ => rfl, rfl⟩
theorem bit5C : Statement .bit5C := ⟨_, rfl, fun _ => rfl, rfl⟩
theorem bit5D : Statement .bit5D := ⟨_, rfl, fun _ => rfl, rfl⟩
theorem bit5E : Statement .bit5E := ⟨_, rfl, fun _ => rfl, rfl⟩
theorem bit5H : Statement .bit5H := ⟨_, rfl, fun _ => rfl, rfl⟩
theorem bit5L : Statement .bit5L := ⟨_, rfl, fun _ => rfl, rfl⟩
theorem bit5IndHl : Statement .bit5IndHl := ⟨_, rfl, fun _ => rfl, rfl⟩
theorem bit5A : Statement .bit5A := ⟨_, rfl, fun _ => rfl, rfl⟩
theorem bit6B : Statement .bit6B := ⟨_, rfl, fun _ => rfl, rfl⟩
theorem bit6C : Statement .bit6C := ⟨_, rfl, fun _ => rfl, rfl⟩
theorem bit6D : Statement .bit6D := ⟨_, rfl, fun _ => rfl, rfl⟩
theorem bit6E : Statement .bit6E := ⟨_, rfl, fun _ => rfl, rfl⟩
theorem bit6H : Statement .bit6H := ⟨_, rfl, fun _ => rfl, rfl⟩
theorem bit6L : Statement .bit6L := ⟨_, rfl, fun _ => rfl, rfl⟩
theorem bit6IndHl : Statement .bit6IndHl := ⟨_, rfl, fun _ => rfl, rfl⟩
theorem bit6A : Statement .bit6A := ⟨_, rfl, fun _ => rfl, rfl⟩
theorem bit7B : Statement .bit7B := ⟨_, rfl, fun _ => rfl, rfl⟩
theorem bit7C : Statement .bit7C := ⟨_, rfl, fun _ => rfl, rfl⟩
theorem bit7D : Statement .bit7D := ⟨_, rfl, fun _ => rfl, rfl⟩
theorem bit7E : Statement .bit7E := ⟨_, rfl, fun _ => rfl, rfl⟩
theorem bit7H : Statement .bit7H := ⟨_, rfl, fun _ => rfl, rfl⟩
theorem bit7L : Statement .bit7L := ⟨_, rfl, fun _ => rfl, rfl⟩
theorem bit7IndHl : Statement .bit7IndHl := ⟨_, rfl, fun _ => rfl, rfl⟩
theorem bit7A : Statement .bit7A := ⟨_, rfl, fun _ => rfl, rfl⟩

end Sys2Proof.Laws.Lookup
end

