-- ==== Sys2Proof/Laws/Rows.lean ====
section
/-! SUPPORT. Every row of the dispatch table stands under the key of the instructions it makes, and the sequencer's fetch does
what the decoder says of the bytes it can read. -/

namespace Sys2Proof

/-- The instructions a row makes have the row's key, and their operand bytes are the immediate the row was given. -/
def Row.Under (key : Word) : Row → Prop
  | .noImm i => i.key = key ∧ i.operandBytes = []
  | .imm8 make => ∀ v, (make v).key = key ∧ (make v).operandBytes = [v]
  | .imm16 make => ∀ v, (make v).key = key ∧ (make v).operandBytes = [loByte v, hiByte v]

theorem plainRow_under (op : Byte) : ∀ row, plainRow op = some row → row.Under (plainKey op) := by
  have all : ∀ n : Fin 256, ∀ row, plainRow (BitVec.ofFin n) = some row → row.Under (plainKey (BitVec.ofFin n)) := by
    intro n
    fin_cases n <;> intro row h <;>
      first
        | (cases h; done)
        | (obtain rfl := Option.some.inj h; first | exact ⟨rfl, rfl⟩ | exact fun _ => ⟨rfl, rfl⟩)
  exact all op.toFin

theorem prefixedRow_under (op : Byte) : ∀ row, prefixedRow op = some row → row.Under (prefixedKey op) := by
  have all : ∀ n : Fin 256, ∀ row, prefixedRow (BitVec.ofFin n) = some row →
      row.Under (prefixedKey (BitVec.ofFin n)) := by
    intro n
    fin_cases n <;> intro row h <;>
      first
        | (cases h; done)
        | (obtain rfl := Option.some.inj h; exact ⟨rfl, rfl⟩)
  exact all op.toFin

@[simp] theorem hiByte_plainKey (op : Byte) : hiByte (plainKey op) = 0 := Machine.hiByte_wordOf 0 op
@[simp] theorem loByte_plainKey (op : Byte) : loByte (plainKey op) = op := Machine.loByte_wordOf 0 op
@[simp] theorem hiByte_prefixedKey (op : Byte) : hiByte (prefixedKey op) = prefixByte := Machine.hiByte_wordOf prefixByte op
@[simp] theorem loByte_prefixedKey (op : Byte) : loByte (prefixedKey op) = op := Machine.loByte_wordOf prefixByte op

/-- The lookup of a key finds the table's row, present under the parameters (R103, U9). -/
theorem lookup_eq_some {cfg : Config} {key : Word} {row : Row} (h : lookup cfg key = some row) :
    dispatchTable key = some row ∧ (row.decided = true → cfg.decidedRowsPresent = true) := by
  unfold lookup at h
  split at h
  · cases h
  · next row' hrow =>
    split at h
    · cases h
    · next hd =>
      obtain rfl := Option.some.inj h
      refine ⟨hrow, fun hdec => ?_⟩
      simpa [hdec] using hd

/-- Every row the lookup finds stands under its key. -/
theorem lookup_under {cfg : Config} {key : Word} {row : Row} (h : lookup cfg key = some row) : row.Under key := by
  have ht := (lookup_eq_some h).1
  unfold dispatchTable at ht
  have hk : key = wordOf (hiByte key) (loByte key) := (Machine.wordOf_hiByte_loByte key).symm
  split at ht
  · next hp =>
    have := prefixedRow_under _ _ ht
    rwa [prefixedKey, ← hp, ← hk] at this
  · split at ht
    · next hz =>
      have := plainRow_under _ _ ht
      rwa [plainKey, ← hz, ← hk] at this
    · cases ht

/-- A plain instruction has one opcode byte, the low byte of its key (R91, R92). -/
theorem opcodeBytes_plain {i : Instr} {op : Byte} (h : i.key = plainKey op) : i.opcodeBytes = [op] := by
  have hz : ¬ hiByte i.key = prefixByte := by rw [h, hiByte_plainKey]; decide
  rw [Instr.opcodeBytes, if_neg hz, h, loByte_plainKey]

/-- A prefixed instruction has two: the prefix and the low byte of its key (R91, R92). -/
theorem opcodeBytes_prefixed {i : Instr} {op : Byte} (h : i.key = prefixedKey op) : i.opcodeBytes = [prefixByte, op] := by
  simp [Instr.opcodeBytes, h]

/-- The bytes of a plain instruction: its opcode and its operand bytes. -/
theorem encode_plain {i : Instr} {op : Byte} (h : i.key = plainKey op) : encode i = op :: i.operandBytes := by
  rw [encode, opcodeBytes_plain h]; rfl

/-- The bytes of a prefixed instruction with no operand bytes: the prefix and the second byte. -/
theorem encode_prefixed {i : Instr} {op : Byte} (h : i.key = prefixedKey op) (ho : i.operandBytes = []) :
    encode i = [prefixByte, op] := by
  rw [encode, opcodeBytes_prefixed h, ho]; rfl

/-- What a row under a key makes of the bytes after the opcode: an instruction of that key, whose operand bytes they begin
with. -/
theorem Row.Under.apply {key : Word} {row : Row} (hu : row.Under key) {bytes rest : List Byte} {i : Instr}
    (h : row.apply bytes = some (i, rest)) : i.key = key ∧ bytes = i.operandBytes ++ rest := by
  cases row with
  | noImm j =>
    obtain ⟨rfl, rfl⟩ := Prod.mk.inj (Option.some.inj h)
    exact ⟨hu.1, by rw [hu.2]; rfl⟩
  | imm8 make =>
    match bytes, h with
    | v :: bs, h =>
      obtain ⟨rfl, rfl⟩ := Prod.mk.inj (Option.some.inj h)
      exact ⟨(hu v).1, by rw [(hu v).2]; rfl⟩
  | imm16 make =>
    match bytes, h with
    | lo :: hi :: bs, h =>
      obtain ⟨rfl, rfl⟩ := Prod.mk.inj (Option.some.inj h)
      exact ⟨(hu _).1, by rw [(hu _).2]; simp⟩

namespace Machine

/-- The window, byte by byte: it ends at the first address that does not read. -/
theorem bytesFrom_succ (s : State) (addr : Word) (n : Nat) :
    s.bytesFrom addr (n + 1) =
      match s.readByte addr with
      | none => []
      | some v => v :: s.bytesFrom (addr + 1) n := rfl

theorem bytesFrom_advancePc (s : State) (k : Nat) (addr : Word) (n : Nat) :
    (s.advancePc k).bytesFrom addr n = s.bytesFrom addr n := by
  induction n generalizing addr with
  | zero => rfl
  | succ n ih => simp only [bytesFrom_succ, ih]; rfl

/-- Where the immediate bytes of a row can be read, the fetch stage makes the instruction the row makes of them (R9, R60). -/
theorem fetchOperands_instr {row : Row} {s : State} {n : Nat} {i : Instr} {rest : List Byte}
    (h : row.apply (s.bytesFrom s.pc n) = some (i, rest)) : fetchOperands row s = .instr i s := by
  cases row with
  | noImm j =>
    obtain ⟨rfl, -⟩ := Prod.mk.inj (Option.some.inj h)
    rfl
  | imm8 make =>
    cases n with
    | zero => cases h
    | succ n =>
      rw [bytesFrom_succ] at h
      cases hv : s.readByte s.pc with
      | none => rw [hv] at h; cases h
      | some v =>
        rw [hv] at h
        obtain ⟨rfl, -⟩ := Prod.mk.inj (Option.some.inj h)
        simp only [fetchOperands, hv]
  | imm16 make =>
    cases n with
    | zero => cases h
    | succ n =>
      rw [bytesFrom_succ] at h
      cases hv : s.readByte s.pc with
      | none => rw [hv] at h; cases h
      | some v =>
        rw [hv] at h
        cases n with
        | zero => cases h
        | succ n =>
          rw [bytesFrom_succ] at h
          cases hw : s.readByte (s.pc + 1) with
          | none => rw [hw] at h; cases h
          | some w =>
            rw [hw] at h
            obtain ⟨rfl, -⟩ := Prod.mk.inj (Option.some.inj h)
            simp only [fetchOperands, hv, hw]

/-- Where they cannot, it takes UnmappedAddressError at the first byte that is missing (R242). -/
theorem fetchOperands_truncated {row : Row} {s : State} {n : Nat} (hn : 2 ≤ n)
    (h : row.apply (s.bytesFrom s.pc n) = none) :
    fetchOperands row s =
      .raised (s.raise (.unmappedAddressError (s.pc + BitVec.ofNat 16 (s.bytesFrom s.pc n).length))) := by
  obtain ⟨m, rfl⟩ : ∃ m, n = m + 2 := ⟨n - 2, by omega⟩
  rw [bytesFrom_succ] at h ⊢
  cases row with
  | noImm j => cases h
  | imm8 make =>
    cases hv : s.readByte s.pc with
    | none => simp [fetchOperands, hv]
    | some v => rw [hv] at h; cases h
  | imm16 make =>
    cases hv : s.readByte s.pc with
    | none => simp [fetchOperands, hv]
    | some v =>
      rw [hv] at h
      simp only at h ⊢
      rw [bytesFrom_succ] at h ⊢
      cases hw : s.readByte (s.pc + 1) with
      | none => simp only [fetchOperands, hv, hw]; rfl
      | some w => rw [hw] at h; cases h

/-- The decoder finds an instruction in the bytes at `pc`: the fetch stage finds the same, with `pc` past its opcode bytes. -/
theorem fetch_of_decode_instr {s : State} {i : Instr} {rest : List Byte}
    (h : decode s.config s.window = .instr i rest) : fetch s = .instr i (s.advancePc i.opcodeLength) := by
  have key : ∀ {k : Word} {n m : Nat} {t : State}, t = s.advancePc m → (∀ j : Instr, j.key = k → j.opcodeLength = m) →
      decodeKey s.config k (s.bytesFrom t.pc n) = .instr i rest →
      dispatchKey k s.pc t = .instr i (s.advancePc i.opcodeLength) := by
    intro k n m t ht hm hd
    unfold decodeKey at hd
    have hc : t.config = s.config := by rw [ht]; rfl
    unfold dispatchKey
    rw [hc]
    cases hl : lookup s.config k with
    | none => rw [hl] at hd; cases hd
    | some row =>
      rw [hl] at hd
      simp only at hd ⊢
      split at hd
      · next j left hap =>
        cases hd
        have hb : s.bytesFrom t.pc n = t.bytesFrom t.pc n := by rw [ht, bytesFrom_advancePc]
        rw [hb] at hap
        rw [fetchOperands_instr hap, hm _ ((lookup_under hl).apply hap).1, ht]
      · cases hd
  unfold State.window at h
  rw [bytesFrom_succ] at h
  unfold fetch
  cases hop : s.readByte s.pc with
  | none => rw [hop] at h; cases h
  | some op =>
    rw [hop] at h
    simp only [decode] at h
    by_cases hp : op = prefixByte
    · simp only [hp, if_true] at h ⊢
      rw [bytesFrom_succ] at h
      cases hs : s.readByte (s.pc + 1) with
      | none => rw [hs] at h; cases h
      | some second =>
        rw [hs] at h
        refine key rfl (fun j hj => by rw [Instr.opcodeLength, opcodeBytes_prefixed hj]; rfl) (n := 1) ?_
        have he : s.pc + 1 + 1 = s.pc + BitVec.ofNat 16 2 := by bv_omega
        rw [he] at h
        exact h
    · simp only [hp, if_false] at h ⊢
      exact key rfl (fun j hj => by rw [Instr.opcodeLength, opcodeBytes_plain hj]; rfl) (n := 2) h

/-- The decoder finds no row: the fetch stage takes DecodeError with the key and the address of the first opcode byte (R110,
R243). -/
theorem fetch_of_decode_absent {s : State} {key : Word} (h : decode s.config s.window = .absent key) :
    ∃ m, fetch s = .raised ((s.advancePc m).raise (.decodeError key s.pc)) := by
  have miss : ∀ {k : Word} {rest : List Byte} (m : Nat), decodeKey s.config k rest = .absent key →
      dispatchKey k s.pc (s.advancePc m) = .raised ((s.advancePc m).raise (.decodeError key s.pc)) := by
    intro k rest m hd
    unfold decodeKey at hd
    unfold dispatchKey
    have hc : (s.advancePc m).config = s.config := rfl
    rw [hc]
    cases hl : lookup s.config k with
    | none => rw [hl] at hd; cases hd; rfl
    | some row =>
      rw [hl] at hd
      simp only at hd
      split at hd <;> cases hd
  unfold State.window at h
  rw [bytesFrom_succ] at h
  unfold fetch
  cases hop : s.readByte s.pc with
  | none => rw [hop] at h; cases h
  | some op =>
    rw [hop] at h
    simp only [decode] at h
    by_cases hp : op = prefixByte
    · simp only [hp, if_true] at h ⊢
      rw [bytesFrom_succ] at h
      cases hs : s.readByte (s.pc + 1) with
      | none => rw [hs] at h; cases h
      | some second =>
        rw [hs] at h
        exact ⟨2, miss 2 h⟩
    · simp only [hp, if_false] at h ⊢
      exact ⟨1, miss 1 h⟩

/-- The readable bytes at `pc` end before the instruction does: the fetch stage takes UnmappedAddressError at the first
address that does not read (R242, R250). -/
theorem fetch_of_decode_truncated {s : State} (h : decode s.config s.window = .truncated) :
    ∃ m, fetch s =
      .raised ((s.advancePc m).raise (.unmappedAddressError (s.pc + BitVec.ofNat 16 s.window.length))) := by
  have short : ∀ {k : Word} (m n : Nat) (addr : Word), 2 ≤ n ∨ (∃ op, k = prefixedKey op) →
      addr = s.pc + BitVec.ofNat 16 m → decodeKey s.config k (s.bytesFrom addr n) = .truncated →
      dispatchKey k s.pc (s.advancePc m) = .raised ((s.advancePc m).raise
        (.unmappedAddressError (addr + BitVec.ofNat 16 (s.bytesFrom addr n).length))) := by
    intro k m n addr hn ha hd
    unfold decodeKey at hd
    unfold dispatchKey
    have hc : (s.advancePc m).config = s.config := rfl
    rw [hc]
    cases hl : lookup s.config k with
    | none => rw [hl] at hd; cases hd
    | some row =>
      rw [hl] at hd
      simp only at hd ⊢
      split at hd
      · cases hd
      · next hap =>
        have hpc : (s.advancePc m).pc = addr := ha.symm
        rw [← bytesFrom_advancePc s m] at hap ⊢
        rw [← hpc] at hap ⊢
        rcases hn with hn | ⟨op, rfl⟩
        · exact fetchOperands_truncated hn hap
        · have hu := (lookup_eq_some hl).1
          simp only [dispatchTable, hiByte_prefixedKey, if_true, loByte_prefixedKey] at hu
          unfold prefixedRow at hu
          exfalso
          have : ∃ i, row = .noImm i := by
            split at hu
            · split at hu <;> first | exact ⟨_, (Option.some.inj hu).symm⟩ | cases hu
            · exact ⟨_, (Option.some.inj hu).symm⟩
            · cases hu
          obtain ⟨i, rfl⟩ := this
          cases hap
  unfold State.window at h ⊢
  rw [bytesFrom_succ] at h ⊢
  unfold fetch
  cases hop : s.readByte s.pc with
  | none => exact ⟨0, by simp [State.advancePc]⟩
  | some op =>
    rw [hop] at h
    simp only [decode] at h
    by_cases hp : op = prefixByte
    · simp only [hp, if_true] at h ⊢
      rw [bytesFrom_succ] at h ⊢
      cases hs : s.readByte (s.pc + 1) with
      | none => exact ⟨1, by simp [State.advancePc]⟩
      | some second =>
        rw [hs] at h
        refine ⟨2, ?_⟩
        have he : s.pc + 1 + 1 = s.pc + BitVec.ofNat 16 2 := by bv_omega
        rw [he] at h ⊢
        simp only [short 2 1 _ (.inr ⟨second, rfl⟩) rfl h]
        congr 3
        simp only [List.length_cons]
        bv_omega
    · simp only [hp, if_false] at h ⊢
      refine ⟨1, ?_⟩
      simp only [short 1 2 _ (.inl (Nat.le_refl 2)) rfl h]
      congr 3
      simp only [List.length_cons]
      bv_omega

end Machine

end Sys2Proof
end

