-- ==== Sys2Proof/Tests/Slice0.lean ====
section
/-! SUPPORT. The model's own tests: the WellFormed checks with terms they refuse; every row's words; one step against a vector
of 95_test_vectors.md for every rule that has one; and a witness for every statement with hypotheses. The expected values
come from spec/, not from the model. -/

namespace Sys2Proof.Tests

open Sys2Proof Sys2Proof.Machine

/-! ### Well-formed terms -/

/-- U9: without the decided rows ADD A,B is no instruction of the machine. -/
theorem test_wellFormed_refuses_decided :
    Instr.wellFormed { launchConfig with decidedRowsPresent := false } .addAB = false := by decide

theorem test_wellFormed_accepts_source_row :
    Instr.wellFormed { launchConfig with decidedRowsPresent := false } .xorA = true := by decide

/-- R5: `ROM_SIZE` is at least 256 and at most 0x8000. -/
theorem test_config_refuses_small_rom : Config.wf { launchConfig with romSize := 255 } = false := by decide

theorem test_config_refuses_large_rom : Config.wf { launchConfig with romSize := 0x8001 } = false := by decide

/-- A list of cells that is not in the canonical form: a repeated address, falling addresses, a default byte listed. -/
theorem test_memory_refuses_repeat : Memory.wf [(0x8000, 1), (0x8000, 2)] = false := by decide

theorem test_memory_refuses_falling : Memory.wf [(0x8001, 1), (0x8000, 2)] = false := by decide

theorem test_memory_refuses_default : Memory.wf [(0x8000, 0)] = false := by decide

/-- R55: an image larger than ROM is refused. -/
theorem test_construct_refuses_large_image :
    construct launchConfig (List.replicate 257 0) [] [] = .error .romSizeError := by
  rw [construct, List.length_replicate]
  exact if_pos (by decide)

/-! ### Every row's words, from `match` and `imm` of spec/opcode_table.json -/

/-- Every listed word decodes to its instruction, with nothing left, and is what the encoder gives. -/
def decodesTo (rows : List (List Byte × Instr)) : Bool :=
  rows.all fun row => decode launchConfig row.1 == .instr row.2 [] && encode row.2 == row.1

/-- Keys 0x01 to 0x17 of spec/opcode_table.json. -/
theorem test_decode_rows_01 : decodesTo
    [([0x01, 0x34, 0x12], .ldBcD16 0x1234), ([0x02], .ldIndBcA), ([0x03], .incBc), ([0x04], .incB),
      ([0x05], .decB), ([0x06, 0x9A], .ldBD8 0x9A), ([0x07], .rlcaAcc), ([0x0A], .ldAIndBc), ([0x0B], .decBc),
      ([0x0C], .incC), ([0x0D], .decC), ([0x0E, 0x9A], .ldCD8 0x9A), ([0x0F], .rrcaAcc),
      ([0x11, 0x34, 0x12], .ldDeD16 0x1234), ([0x12], .ldIndDeA), ([0x13], .incDe), ([0x14], .incD),
      ([0x15], .decD), ([0x16, 0x9A], .ldDD8 0x9A), ([0x17], .rlaAcc)] = true := by decide

/-- Keys 0x18 to 0x2E of spec/opcode_table.json. -/
theorem test_decode_rows_02 : decodesTo
    [([0x18, 0x9A], .jrE8 0x9A), ([0x1A], .ldAIndDe), ([0x1B], .decDe), ([0x1C], .incE), ([0x1D], .decE),
      ([0x1E, 0x9A], .ldED8 0x9A), ([0x1F], .rraAcc), ([0x20, 0x9A], .jrNzE8 0x9A),
      ([0x21, 0x34, 0x12], .ldHlD16 0x1234), ([0x22], .ldIndHlIncA), ([0x23], .incHl), ([0x24], .incH),
      ([0x25], .decH), ([0x26, 0x9A], .ldHD8 0x9A), ([0x28, 0x9A], .jrZE8 0x9A), ([0x2A], .ldAIndHlInc),
      ([0x2B], .decHl), ([0x2C], .incL), ([0x2D], .decL), ([0x2E, 0x9A], .ldLD8 0x9A)] = true := by decide

/-- Keys 0x30 to 0x46 of spec/opcode_table.json. -/
theorem test_decode_rows_03 : decodesTo
    [([0x30, 0x9A], .jrNcE8 0x9A), ([0x31, 0x34, 0x12], .ldSpD16 0x1234), ([0x32], .ldIndHlDecA), ([0x33], .incSp),
      ([0x34], .incIndHl), ([0x35], .decIndHl), ([0x36, 0x9A], .ldIndHlD8 0x9A), ([0x38, 0x9A], .jrCE8 0x9A),
      ([0x3A], .ldAIndHlDec), ([0x3B], .decSp), ([0x3C], .incA), ([0x3D], .decA), ([0x3E, 0x9A], .ldAD8 0x9A),
      ([0x40], .ldBB), ([0x41], .ldBC), ([0x42], .ldBD), ([0x43], .ldBE), ([0x44], .ldBH), ([0x45], .ldBL),
      ([0x46], .ldBIndHl)] = true := by decide

/-- Keys 0x47 to 0x5A of spec/opcode_table.json. -/
theorem test_decode_rows_04 : decodesTo
    [([0x47], .ldBA), ([0x48], .ldCB), ([0x49], .ldCC), ([0x4A], .ldCD), ([0x4B], .ldCE), ([0x4C], .ldCH),
      ([0x4D], .ldCL), ([0x4E], .ldCIndHl), ([0x4F], .ldCA), ([0x50], .ldDB), ([0x51], .ldDC), ([0x52], .ldDD),
      ([0x53], .ldDE), ([0x54], .ldDH), ([0x55], .ldDL), ([0x56], .ldDIndHl), ([0x57], .ldDA), ([0x58], .ldEB),
      ([0x59], .ldEC), ([0x5A], .ldED)] = true := by decide

/-- Keys 0x5B to 0x6E of spec/opcode_table.json. -/
theorem test_decode_rows_05 : decodesTo
    [([0x5B], .ldEE), ([0x5C], .ldEH), ([0x5D], .ldEL), ([0x5E], .ldEIndHl), ([0x5F], .ldEA), ([0x60], .ldHB),
      ([0x61], .ldHC), ([0x62], .ldHD), ([0x63], .ldHE), ([0x64], .ldHH), ([0x65], .ldHL), ([0x66], .ldHIndHl),
      ([0x67], .ldHA), ([0x68], .ldLB), ([0x69], .ldLC), ([0x6A], .ldLD), ([0x6B], .ldLE), ([0x6C], .ldLH),
      ([0x6D], .ldLL), ([0x6E], .ldLIndHl)] = true := by decide

/-- Keys 0x6F to 0x83 of spec/opcode_table.json. -/
theorem test_decode_rows_06 : decodesTo
    [([0x6F], .ldLA), ([0x70], .ldIndHlB), ([0x71], .ldIndHlC), ([0x72], .ldIndHlD), ([0x73], .ldIndHlE),
      ([0x74], .ldIndHlH), ([0x75], .ldIndHlL), ([0x77], .ldIndHlA), ([0x78], .ldAB), ([0x79], .ldAC),
      ([0x7A], .ldAD), ([0x7B], .ldAE), ([0x7C], .ldAH), ([0x7D], .ldAL), ([0x7E], .ldAIndHl), ([0x7F], .ldAA),
      ([0x80], .addAB), ([0x81], .addAC), ([0x82], .addAD), ([0x83], .addAE)] = true := by decide

/-- Keys 0x84 to 0xA7 of spec/opcode_table.json. -/
theorem test_decode_rows_07 : decodesTo
    [([0x84], .addAH), ([0x85], .addAL), ([0x86], .addAIndHl), ([0x87], .addAA), ([0x90], .subB), ([0x91], .subC),
      ([0x92], .subD), ([0x93], .subE), ([0x94], .subH), ([0x95], .subL), ([0x96], .subIndHl), ([0x97], .subA),
      ([0xA0], .andB), ([0xA1], .andC), ([0xA2], .andD), ([0xA3], .andE), ([0xA4], .andH), ([0xA5], .andL),
      ([0xA6], .andIndHl), ([0xA7], .andA)] = true := by decide

/-- Keys 0xA8 to 0xBB of spec/opcode_table.json. -/
theorem test_decode_rows_08 : decodesTo
    [([0xA8], .xorB), ([0xA9], .xorC), ([0xAA], .xorD), ([0xAB], .xorE), ([0xAC], .xorH), ([0xAD], .xorL),
      ([0xAE], .xorIndHl), ([0xAF], .xorA), ([0xB0], .orB), ([0xB1], .orC), ([0xB2], .orD), ([0xB3], .orE),
      ([0xB4], .orH), ([0xB5], .orL), ([0xB6], .orIndHl), ([0xB7], .orA), ([0xB8], .cpB), ([0xB9], .cpC),
      ([0xBA], .cpD), ([0xBB], .cpE)] = true := by decide

/-- Keys 0xBC to 0xD4 of spec/opcode_table.json. -/
theorem test_decode_rows_09 : decodesTo
    [([0xBC], .cpH), ([0xBD], .cpL), ([0xBE], .cpIndHl), ([0xBF], .cpA), ([0xC0], .retNz), ([0xC1], .popBc),
      ([0xC2, 0x34, 0x12], .jpNzA16 0x1234), ([0xC3, 0x34, 0x12], .jpA16 0x1234),
      ([0xC4, 0x34, 0x12], .callNzA16 0x1234), ([0xC5], .pushBc), ([0xC6, 0x9A], .addAD8 0x9A), ([0xC8], .retZ),
      ([0xC9], .ret), ([0xCA, 0x34, 0x12], .jpZA16 0x1234), ([0xCC, 0x34, 0x12], .callZA16 0x1234),
      ([0xCD, 0x34, 0x12], .callA16 0x1234), ([0xD0], .retNc), ([0xD1], .popDe),
      ([0xD2, 0x34, 0x12], .jpNcA16 0x1234), ([0xD4, 0x34, 0x12], .callNcA16 0x1234)] = true := by decide

/-- Keys 0xD5 to 0xFE of spec/opcode_table.json. -/
theorem test_decode_rows_10 : decodesTo
    [([0xD5], .pushDe), ([0xD6, 0x9A], .subD8 0x9A), ([0xD8], .retC), ([0xDA, 0x34, 0x12], .jpCA16 0x1234),
      ([0xDC, 0x34, 0x12], .callCA16 0x1234), ([0xE0, 0x9A], .ldhIndA8A 0x9A), ([0xE1], .popHl),
      ([0xE2], .ldIndCA), ([0xE5], .pushHl), ([0xE6, 0x9A], .andD8 0x9A), ([0xE9], .jpHl),
      ([0xEA, 0x34, 0x12], .ldIndA16A 0x1234), ([0xEE, 0x9A], .xorD8 0x9A), ([0xF0, 0x9A], .ldhAIndA8 0x9A),
      ([0xF1], .popAf), ([0xF2], .ldAIndC), ([0xF5], .pushAf), ([0xF6, 0x9A], .orD8 0x9A),
      ([0xFA, 0x34, 0x12], .ldAIndA16 0x1234), ([0xFE, 0x9A], .cpD8 0x9A)] = true := by decide

/-- Keys 0xCB00 to 0xCB13 of spec/opcode_table.json. -/
theorem test_decode_rows_11 : decodesTo
    [([0xCB, 0x00], .rlcB), ([0xCB, 0x01], .rlcC), ([0xCB, 0x02], .rlcD), ([0xCB, 0x03], .rlcE),
      ([0xCB, 0x04], .rlcH), ([0xCB, 0x05], .rlcL), ([0xCB, 0x06], .rlcIndHl), ([0xCB, 0x07], .rlcA),
      ([0xCB, 0x08], .rrcB), ([0xCB, 0x09], .rrcC), ([0xCB, 0x0A], .rrcD), ([0xCB, 0x0B], .rrcE),
      ([0xCB, 0x0C], .rrcH), ([0xCB, 0x0D], .rrcL), ([0xCB, 0x0E], .rrcIndHl), ([0xCB, 0x0F], .rrcA),
      ([0xCB, 0x10], .rlB), ([0xCB, 0x11], .rlC), ([0xCB, 0x12], .rlD), ([0xCB, 0x13], .rlE)] = true := by decide

/-- Keys 0xCB14 to 0xCB27 of spec/opcode_table.json. -/
theorem test_decode_rows_12 : decodesTo
    [([0xCB, 0x14], .rlH), ([0xCB, 0x15], .rlL), ([0xCB, 0x16], .rlIndHl), ([0xCB, 0x17], .rlA),
      ([0xCB, 0x18], .rrB), ([0xCB, 0x19], .rrC), ([0xCB, 0x1A], .rrD), ([0xCB, 0x1B], .rrE), ([0xCB, 0x1C], .rrH),
      ([0xCB, 0x1D], .rrL), ([0xCB, 0x1E], .rrIndHl), ([0xCB, 0x1F], .rrA), ([0xCB, 0x20], .slaB),
      ([0xCB, 0x21], .slaC), ([0xCB, 0x22], .slaD), ([0xCB, 0x23], .slaE), ([0xCB, 0x24], .slaH),
      ([0xCB, 0x25], .slaL), ([0xCB, 0x26], .slaIndHl), ([0xCB, 0x27], .slaA)] = true := by decide

/-- Keys 0xCB28 to 0xCB43 of spec/opcode_table.json. -/
theorem test_decode_rows_13 : decodesTo
    [([0xCB, 0x28], .sraB), ([0xCB, 0x29], .sraC), ([0xCB, 0x2A], .sraD), ([0xCB, 0x2B], .sraE),
      ([0xCB, 0x2C], .sraH), ([0xCB, 0x2D], .sraL), ([0xCB, 0x2E], .sraIndHl), ([0xCB, 0x2F], .sraA),
      ([0xCB, 0x38], .srlB), ([0xCB, 0x39], .srlC), ([0xCB, 0x3A], .srlD), ([0xCB, 0x3B], .srlE),
      ([0xCB, 0x3C], .srlH), ([0xCB, 0x3D], .srlL), ([0xCB, 0x3E], .srlIndHl), ([0xCB, 0x3F], .srlA),
      ([0xCB, 0x40], .bit0B), ([0xCB, 0x41], .bit0C), ([0xCB, 0x42], .bit0D),
      ([0xCB, 0x43], .bit0E)] = true := by decide

/-- Keys 0xCB44 to 0xCB57 of spec/opcode_table.json. -/
theorem test_decode_rows_14 : decodesTo
    [([0xCB, 0x44], .bit0H), ([0xCB, 0x45], .bit0L), ([0xCB, 0x46], .bit0IndHl), ([0xCB, 0x47], .bit0A),
      ([0xCB, 0x48], .bit1B), ([0xCB, 0x49], .bit1C), ([0xCB, 0x4A], .bit1D), ([0xCB, 0x4B], .bit1E),
      ([0xCB, 0x4C], .bit1H), ([0xCB, 0x4D], .bit1L), ([0xCB, 0x4E], .bit1IndHl), ([0xCB, 0x4F], .bit1A),
      ([0xCB, 0x50], .bit2B), ([0xCB, 0x51], .bit2C), ([0xCB, 0x52], .bit2D), ([0xCB, 0x53], .bit2E),
      ([0xCB, 0x54], .bit2H), ([0xCB, 0x55], .bit2L), ([0xCB, 0x56], .bit2IndHl),
      ([0xCB, 0x57], .bit2A)] = true := by decide

/-- Keys 0xCB58 to 0xCB6B of spec/opcode_table.json. -/
theorem test_decode_rows_15 : decodesTo
    [([0xCB, 0x58], .bit3B), ([0xCB, 0x59], .bit3C), ([0xCB, 0x5A], .bit3D), ([0xCB, 0x5B], .bit3E),
      ([0xCB, 0x5C], .bit3H), ([0xCB, 0x5D], .bit3L), ([0xCB, 0x5E], .bit3IndHl), ([0xCB, 0x5F], .bit3A),
      ([0xCB, 0x60], .bit4B), ([0xCB, 0x61], .bit4C), ([0xCB, 0x62], .bit4D), ([0xCB, 0x63], .bit4E),
      ([0xCB, 0x64], .bit4H), ([0xCB, 0x65], .bit4L), ([0xCB, 0x66], .bit4IndHl), ([0xCB, 0x67], .bit4A),
      ([0xCB, 0x68], .bit5B), ([0xCB, 0x69], .bit5C), ([0xCB, 0x6A], .bit5D),
      ([0xCB, 0x6B], .bit5E)] = true := by decide

/-- Keys 0xCB6C to 0xCB7F of spec/opcode_table.json. -/
theorem test_decode_rows_16 : decodesTo
    [([0xCB, 0x6C], .bit5H), ([0xCB, 0x6D], .bit5L), ([0xCB, 0x6E], .bit5IndHl), ([0xCB, 0x6F], .bit5A),
      ([0xCB, 0x70], .bit6B), ([0xCB, 0x71], .bit6C), ([0xCB, 0x72], .bit6D), ([0xCB, 0x73], .bit6E),
      ([0xCB, 0x74], .bit6H), ([0xCB, 0x75], .bit6L), ([0xCB, 0x76], .bit6IndHl), ([0xCB, 0x77], .bit6A),
      ([0xCB, 0x78], .bit7B), ([0xCB, 0x79], .bit7C), ([0xCB, 0x7A], .bit7D), ([0xCB, 0x7B], .bit7E),
      ([0xCB, 0x7C], .bit7H), ([0xCB, 0x7D], .bit7L), ([0xCB, 0x7E], .bit7IndHl),
      ([0xCB, 0x7F], .bit7A)] = true := by decide

/-! ### Words written out bit by bit from the encodings of 30_encoding.md, one or more for each family -/

/-- R105: `LD r,r'` is `01 yyy zzz`: LD A,B. -/
theorem test_bits_load : decodeTableWord 8 0b01_111_000 = some .ldAB := by decide

/-- R105: 0x76 is absent. -/
theorem test_bits_no_halt : decodeTableWord 8 0b01_110_110 = none := by decide

/-- R104: `LD rr,d16` is `00 pp0 001`: LD SP,d16. -/
theorem test_bits_load_wide : decodeTableWord 8 0b00_110_001 = some (.ldSpD16 0) := by decide

/-- R104: DEC (HL) is `00 110 101`. -/
theorem test_bits_arith8 : decodeTableWord 8 0b00_110_101 = some .decIndHl := by decide

/-- R104: DEC rr is `00 pp1 011`: DEC DE. -/
theorem test_bits_arith16 : decodeTableWord 8 0b00_011_011 = some .decDe := by decide

/-- R106: the operation is `yyy` of `10 yyy zzz`: XOR L. -/
theorem test_bits_logic : decodeTableWord 8 0b10_101_101 = some .xorL := by decide

/-- R109: BIT b is `01 bbb zzz` after the prefix: BIT 5,(HL). -/
theorem test_bits_bit : decodeTableWord 16 0b11001011_01_101_110 = some .bit5IndHl := by decide

/-- R104: JR cc,e8 is `00 1cc 000`: JR NC,e8. -/
theorem test_bits_jump : decodeTableWord 8 0b00_110_000 = some (.jrNcE8 0) := by decide

/-- R107: CALL cc,a16 is `11 0cc 100`: CALL Z,a16. -/
theorem test_bits_call : decodeTableWord 8 0b11_001_100 = some (.callZA16 0) := by decide

/-- R107: POP is `11 pp0 001`: POP AF. -/
theorem test_bits_stack : decodeTableWord 8 0b11_110_001 = some .popAf := by decide

/-- R109: SRA is `00 101 zzz` after the prefix: SRA D. -/
theorem test_bits_rotate : decodeTableWord 16 0b11001011_00_101_010 = some .sraD := by decide

/-! ### One step against a vector of 95_test_vectors.md -/

/-- The state of a vector's conventions: reset registers, the bytes at an address, `pc` there. -/
def program (start : Nat) (bytes : List Byte) : State :=
  { State.reset with pc := BitVec.ofNat 16 start }.pokeBytes (BitVec.ofNat 16 start) bytes

/-- One step answers a next state, and the check holds of it. -/
def stepAnswers (s : State) (check : State → Bool) : Bool :=
  match step s with
  | .next t => check t
  | .fault _ => false
  | .refused _ => false

/-- Vector L1 (R120): LD A,B. -/
theorem test_vector_L1 :
    stepAnswers { program 0 [0x78] with b := 0x5A }
      (fun t => t.a == 0x5A && t.pc == 0x0001) = true := by decide

/-- Vector L2 (R121): LD A,(HL). -/
theorem test_vector_L2 :
    stepAnswers { (program 0 [0x7E]).pokeByte 0x8000 0xAB with h := 0x80, l := 0x00 }
      (fun t => t.a == 0xAB && t.pc == 0x0001) = true := by decide

/-- Vector L4 (R122): LD C,d8. -/
theorem test_vector_L4 :
    stepAnswers (program 0 [0x0E, 0x11])
      (fun t => t.c == 0x11 && t.pc == 0x0002) = true := by decide

/-- Vector L5 (R123): LD (HL),d8. -/
theorem test_vector_L5 :
    stepAnswers { program 0 [0x36, 0x7F] with h := 0xFF, l := 0x40 }
      (fun t => t.pc == 0x0002 && t.readByte 0xFF40 == some 0x7F) = true := by decide

/-- Vector L7 (R124): LD HL,d16. -/
theorem test_vector_L7 :
    stepAnswers (program 0 [0x21, 0x34, 0x12])
      (fun t => t.h == 0x12 && t.l == 0x34 && t.pc == 0x0003) = true := by decide

/-- Vector L9 (R125): LD A,(DE). -/
theorem test_vector_L9 :
    stepAnswers { program 0 [0x1A, 0x00, 0x00, 0x00, 0xCE] with d := 0x00, e := 0x04 }
      (fun t => t.a == 0xCE && t.pc == 0x0001) = true := by decide

/-- Vector L10 (R126): LD (DE),A. -/
theorem test_vector_L10 :
    stepAnswers { program 0 [0x12] with d := 0x90, e := 0x00, a := 0x3C }
      (fun t => t.pc == 0x0001 && t.readByte 0x9000 == some 0x3C) = true := by decide

/-- Vector L13 (R127): LD (HL),L. -/
theorem test_vector_L13 :
    stepAnswers { program 0 [0x75] with h := 0x80, l := 0x10 }
      (fun t => t.pc == 0x0001 && t.readByte 0x8010 == some 0x10) = true := by decide

/-- Vector L14 (R129): LD A,(HL+). -/
theorem test_vector_L14 :
    stepAnswers { (program 0 [0x2A]).pokeByte 0x8000 0x12 with h := 0x80, l := 0x00 }
      (fun t => t.a == 0x12 && t.l == 0x01 && t.pc == 0x0001) = true := by decide

/-- Vector L15 (R130): LD (HL+),A. -/
theorem test_vector_L15 :
    stepAnswers { program 0 [0x22] with h := 0x9F, l := 0xFF, a := 0x55 }
      (fun t => t.h == 0xA0 && t.l == 0x00 && t.pc == 0x0001 && t.readByte 0x9FFF == some 0x55) = true := by decide

/-- Vector L16 (R131): LD A,(HL-). -/
theorem test_vector_L16 :
    stepAnswers { program 0 [0x3A] with h := 0x00, l := 0x00 }
      (fun t => t.a == 0x3A && t.h == 0xFF && t.l == 0xFF && t.pc == 0x0001) = true := by decide

/-- Vector L17 (R132): LD (HL-),A. -/
theorem test_vector_L17 :
    stepAnswers { program 0 [0x32] with h := 0x80, l := 0x00, a := 0x77 }
      (fun t => t.h == 0x7F && t.l == 0xFF && t.pc == 0x0001 && t.readByte 0x8000 == some 0x77) = true := by decide

/-- Vector L19 (R129): LD A,(HL+). -/
theorem test_vector_L19 :
    stepAnswers { program 0 [0x2A] with h := 0xFF, l := 0xFF }
      (fun t => t.engine == .haltedOnError (.unmappedAddressError 0xFFFF)) = true := by decide

/-- Vector L20 (R133): LD A,(a16). -/
theorem test_vector_L20 :
    stepAnswers ((program 0 [0xFA, 0x00, 0x80]).pokeByte 0x8000 0xAB)
      (fun t => t.a == 0xAB && t.pc == 0x0003) = true := by decide

/-- Vector L21 (R134): LD (a16),A. -/
theorem test_vector_L21 :
    stepAnswers { program 0 [0xEA, 0x00, 0x80] with a := 0xAB }
      (fun t => t.pc == 0x0003 && t.readByte 0x8000 == some 0xAB) = true := by decide

/-- Vector L22 (R134): LD (a16),A. -/
theorem test_vector_L22 :
    stepAnswers { program 0 [0xEA, 0x00, 0xC0] with a := 0xAB }
      (fun t => t.engine == .haltedOnError (.unmappedAddressError 0xC000)) = true := by decide

/-- Vector L23 (R135): LDH (a8),A. -/
theorem test_vector_L23 :
    stepAnswers { program 0 [0xE0, 0x47] with a := 0xFC }
      (fun t => t.pc == 0x0002 && t.readByte 0xFF47 == some 0xFC) = true := by decide

/-- Vector L24 (R135): LDH (a8),A. -/
theorem test_vector_L24 :
    stepAnswers { program 0 [0xE0, 0x80] with a := 0xFC }
      (fun t => t.engine == .haltedOnError (.unmappedAddressError 0xFF80)) = true := by decide

/-- Vector L25 (R136): LDH A,(a8). -/
theorem test_vector_L25 :
    stepAnswers { (program 0 [0xF0, 0x44]).pokeByte 0xFF44 0x90 with a := 0x55 }
      (fun t => t.a == 0x90 && t.pc == 0x0002) = true := by decide

/-- Vector L26 (R137): LD (C),A. -/
theorem test_vector_L26 :
    stepAnswers { program 0 [0xE2] with c := 0x11, a := 0x80 }
      (fun t => t.pc == 0x0001 && t.readByte 0xFF11 == some 0x80) = true := by decide

/-- Vector L28 (R138): LD A,(C). -/
theorem test_vector_L28 :
    stepAnswers { (program 0 [0xF2]).pokeByte 0xFF7F 0x9A with c := 0x7F }
      (fun t => t.a == 0x9A && t.pc == 0x0001) = true := by decide

/-- Vector L32 (R122): LD A,d8. -/
theorem test_vector_L32 :
    stepAnswers (program 0xff [0x3E])
      (fun t => t.engine == .haltedOnError (.unmappedAddressError 0x0100)) = true := by decide

/-- Vector A1 (R150): INC C. -/
theorem test_vector_A1 :
    stepAnswers { program 0 [0x0C] with c := 0x0F, f := 0x10 }
      (fun t => t.f == 0x30 && t.c == 0x10 && t.pc == 0x0001) = true := by decide

/-- Vector A5 (R152): DEC B. -/
theorem test_vector_A5 :
    stepAnswers { program 0 [0x05] with b := 0x01 }
      (fun t => t.f == 0xC0 && t.b == 0x00 && t.pc == 0x0001) = true := by decide

/-- Vector A9 (R151): INC (HL). -/
theorem test_vector_A9 :
    stepAnswers { (program 0 [0x34]).pokeByte 0x8000 0xFF with h := 0x80, l := 0x00 }
      (fun t => t.f == 0xA0 && t.pc == 0x0001 && t.readByte 0x8000 == some 0x00) = true := by decide

/-- Vector A10 (R153): DEC (HL). -/
theorem test_vector_A10 :
    stepAnswers { (program 0 [0x35]).pokeByte 0xFF10 0x10 with h := 0xFF, l := 0x10, f := 0x10 }
      (fun t => t.f == 0x70 && t.pc == 0x0001 && t.readByte 0xFF10 == some 0x0F) = true := by decide

/-- Vector A11 (R151): INC (HL). -/
theorem test_vector_A11 :
    stepAnswers { program 0 [0x34] with h := 0x00, l := 0x00 }
      (fun t => t.engine == .haltedOnError (.unmappedAddressError 0x0000)) = true := by decide

/-- Vector A13 (R154): CP B. -/
theorem test_vector_A13 :
    stepAnswers { program 0 [0xB8] with a := 0x3C, b := 0x40 }
      (fun t => t.f == 0x50 && t.pc == 0x0001) = true := by decide

/-- Vector A17 (R155): CP (HL). -/
theorem test_vector_A17 :
    stepAnswers { (program 0 [0xBE]).pokeByte 0x8000 0x3C with a := 0x3C, h := 0x80, l := 0x00 }
      (fun t => t.f == 0xC0 && t.pc == 0x0001) = true := by decide

/-- Vector A18 (R156): CP d8. -/
theorem test_vector_A18 :
    stepAnswers { program 0 [0xFE, 0x34] with a := 0x34 }
      (fun t => t.f == 0xC0 && t.pc == 0x0002) = true := by decide

/-- Vector A21 (R157): ADD A,B. -/
theorem test_vector_A21 :
    stepAnswers { program 0 [0x80] with a := 0x3A, b := 0xC6 }
      (fun t => t.a == 0x00 && t.f == 0xB0 && t.pc == 0x0001) = true := by decide

/-- Vector A24 (R158): ADD A,(HL). -/
theorem test_vector_A24 :
    stepAnswers { (program 0 [0x86]).pokeByte 0x8000 0x0F with a := 0x01, h := 0x80, l := 0x00 }
      (fun t => t.a == 0x10 && t.f == 0x20 && t.pc == 0x0001) = true := by decide

/-- Vector A25 (R159): ADD A,d8. -/
theorem test_vector_A25 :
    stepAnswers { program 0 [0xC6, 0x01] with a := 0xFF }
      (fun t => t.a == 0x00 && t.f == 0xB0 && t.pc == 0x0002) = true := by decide

/-- Vector A27 (R160): SUB B. -/
theorem test_vector_A27 :
    stepAnswers { program 0 [0x90] with a := 0x3E, b := 0x3E }
      (fun t => t.a == 0x00 && t.f == 0xC0 && t.pc == 0x0001) = true := by decide

/-- Vector A30 (R161): SUB (HL). -/
theorem test_vector_A30 :
    stepAnswers { (program 0 [0x96]).pokeByte 0x8000 0x40 with a := 0x3E, h := 0x80, l := 0x00 }
      (fun t => t.a == 0xFE && t.f == 0x50 && t.pc == 0x0001) = true := by decide

/-- Vector A31 (R162): SUB d8. -/
theorem test_vector_A31 :
    stepAnswers { program 0 [0xD6, 0x0F] with a := 0x3E }
      (fun t => t.a == 0x2F && t.f == 0x60 && t.pc == 0x0002) = true := by decide

/-- Vector A32 (R108): (absent). -/
theorem test_vector_A32 :
    stepAnswers { program 0 [0x88] with a := 0x01 }
      (fun t => t.engine == .haltedOnError (.decodeError 0x88 0x0000)) = true := by decide

/-- Vector W1 (R170): INC DE. -/
theorem test_vector_W1 :
    stepAnswers { program 0 [0x13] with d := 0x01, e := 0x04 }
      (fun t => t.e == 0x05 && t.pc == 0x0001) = true := by decide

/-- Vector W6 (R171): DEC BC. -/
theorem test_vector_W6 :
    stepAnswers { program 0 [0x0B] with b := 0x01, c := 0x00 }
      (fun t => t.b == 0x00 && t.c == 0xFF && t.pc == 0x0001) = true := by decide

/-- Vector G1 (R175): XOR A. -/
theorem test_vector_G1 :
    stepAnswers { program 0 [0xAF] with a := 0x5A, f := 0x70 }
      (fun t => t.a == 0x00 && t.f == 0x80 && t.pc == 0x0001) = true := by decide

/-- Vector G4 (R176): XOR (HL). -/
theorem test_vector_G4 :
    stepAnswers { (program 0 [0xAE]).pokeByte 0x8000 0xFF with a := 0xFF, h := 0x80, l := 0x00, f := 0x10 }
      (fun t => t.a == 0x00 && t.f == 0x80 && t.pc == 0x0001) = true := by decide

/-- Vector G5 (R177): XOR d8. -/
theorem test_vector_G5 :
    stepAnswers { program 0 [0xEE, 0xFF] with a := 0x0F, f := 0xF0 }
      (fun t => t.a == 0xF0 && t.f == 0x00 && t.pc == 0x0002) = true := by decide

/-- Vector G6 (R178): AND B. -/
theorem test_vector_G6 :
    stepAnswers { program 0 [0xA0] with a := 0xF0, b := 0x0F, f := 0x10 }
      (fun t => t.a == 0x00 && t.f == 0xA0 && t.pc == 0x0001) = true := by decide

/-- Vector G8 (R179): AND (HL). -/
theorem test_vector_G8 :
    stepAnswers { (program 0 [0xA6]).pokeByte 0x8000 0x0F with a := 0x3C, h := 0x80, l := 0x00 }
      (fun t => t.a == 0x0C && t.f == 0x20 && t.pc == 0x0001) = true := by decide

/-- Vector G9 (R180): AND d8. -/
theorem test_vector_G9 :
    stepAnswers { program 0 [0xE6, 0x0F] with a := 0x5A }
      (fun t => t.a == 0x0A && t.f == 0x20 && t.pc == 0x0002) = true := by decide

/-- Vector G10 (R181): OR C. -/
theorem test_vector_G10 :
    stepAnswers { program 0 [0xB1] with a := 0x00, c := 0x00, f := 0x70 }
      (fun t => t.f == 0x80 && t.pc == 0x0001) = true := by decide

/-- Vector G12 (R182): OR (HL). -/
theorem test_vector_G12 :
    stepAnswers { (program 0 [0xB6]).pokeByte 0xFF00 0x80 with a := 0x01, h := 0xFF, l := 0x00 }
      (fun t => t.a == 0x81 && t.pc == 0x0001) = true := by decide

/-- Vector G13 (R183): OR d8. -/
theorem test_vector_G13 :
    stepAnswers { program 0 [0xF6, 0x80] with a := 0x01, f := 0xF0 }
      (fun t => t.a == 0x81 && t.f == 0x00 && t.pc == 0x0002) = true := by decide

/-- Vector B1 (R185): BIT 7,H. -/
theorem test_vector_B1 :
    stepAnswers { program 0 [0xCB, 0x7C] with h := 0x9F, f := 0x10 }
      (fun t => t.f == 0x30 && t.pc == 0x0002) = true := by decide

/-- Vector B5 (R186): BIT 0,(HL). -/
theorem test_vector_B5 :
    stepAnswers { program 0 [0xCB, 0x46] with h := 0x00, l := 0x00 }
      (fun t => t.f == 0x20 && t.pc == 0x0002) = true := by decide

/-- Vector B9 (R110): (absent). -/
theorem test_vector_B9 :
    stepAnswers (program 0 [0xCB, 0x86])
      (fun t => t.engine == .haltedOnError (.decodeError 0xCB86 0x0000)) = true := by decide

/-- Vector J1 (R190): JR e8. -/
theorem test_vector_J1 :
    stepAnswers (program 0 [0x18, 0x00])
      (fun t => t.pc == 0x0002) = true := by decide

/-- Vector J4 (R190): JR e8. -/
theorem test_vector_J4 :
    stepAnswers (program 0 [0x18, 0xFD])
      (fun t => t.engine == .haltedOnError (.invalidJumpError 0x0002 (-3))) = true := by decide

/-- Vector J9 (R191): JR NZ,e8. -/
theorem test_vector_J9 :
    stepAnswers { program 0xa [0x20, 0xFB] with f := 0x00 }
      (fun t => t.pc == 0x0007) = true := by decide

/-- Vector J16 (R192): JP a16. -/
theorem test_vector_J16 :
    stepAnswers (program 0 [0xC3, 0x50, 0x01])
      (fun t => t.pc == 0x0150) = true := by decide

/-- Vector J19 (R193): JP NZ,a16. -/
theorem test_vector_J19 :
    stepAnswers { program 0 [0xC2, 0x00, 0x90] with f := 0x00 }
      (fun t => t.pc == 0x9000) = true := by decide

/-- Vector J24 (R194): JP HL. -/
theorem test_vector_J24 :
    stepAnswers { program 0 [0xE9] with h := 0x80, l := 0x00 }
      (fun t => t.pc == 0x8000) = true := by decide

/-- Vector K1 (R200): CALL a16. -/
theorem test_vector_K1 :
    stepAnswers { program 0x28 [0xCD, 0x95, 0x00] with sp := 0xA000 }
      (fun t => t.sp == 0x9FFE && t.pc == 0x0095 && t.readByte 0x9FFE == some 0x2B && t.readByte 0x9FFF == some 0x00) = true := by decide

/-- Vector K2 (R200): CALL a16. -/
theorem test_vector_K2 :
    stepAnswers (program 0x28 [0xCD, 0x95, 0x00])
      (fun t => t.engine == .haltedOnError (.unmappedAddressError 0xFFFE)) = true := by decide

/-- Vector K5 (R201): CALL NZ,a16. -/
theorem test_vector_K5 :
    stepAnswers { program 0x40 [0xC4, 0x00, 0x90] with sp := 0xFF80, f := 0x00 }
      (fun t => t.sp == 0xFF7E && t.pc == 0x9000 && t.readByte 0xFF7E == some 0x43 && t.readByte 0xFF7F == some 0x00) = true := by decide

/-- Vector K10 (R202): RET. -/
theorem test_vector_K10 :
    stepAnswers { ((program 0 [0xC9]).pokeByte 0x9FFE 0x2B).pokeByte 0x9FFF 0x00 with sp := 0x9FFE }
      (fun t => t.sp == 0xA000 && t.pc == 0x002B) = true := by decide

/-- Vector K13 (R203): RET Z. -/
theorem test_vector_K13 :
    stepAnswers { ((program 0x95 [0xC8]).pokeByte 0x9FFE 0x2B).pokeByte 0x9FFF 0x00 with sp := 0x9FFE, f := 0x80 }
      (fun t => t.sp == 0xA000 && t.pc == 0x002B) = true := by decide

/-- Vector T1 (R210): PUSH BC. -/
theorem test_vector_T1 :
    stepAnswers { program 0 [0xC5] with b := 0x12, c := 0x34, sp := 0xA000 }
      (fun t => t.sp == 0x9FFE && t.pc == 0x0001 && t.readByte 0x9FFE == some 0x34 && t.readByte 0x9FFF == some 0x12) = true := by decide

/-- Vector T4 (R211): PUSH AF. -/
theorem test_vector_T4 :
    stepAnswers { program 0 [0xF5] with a := 0x12, f := 0xB0, sp := 0xFF80 }
      (fun t => t.sp == 0xFF7E && t.pc == 0x0001 && t.readByte 0xFF7E == some 0xB0 && t.readByte 0xFF7F == some 0x12) = true := by decide

/-- Vector T5 (R210): PUSH BC. -/
theorem test_vector_T5 :
    stepAnswers { program 0 [0xC5] with b := 0x12, c := 0x34 }
      (fun t => t.engine == .haltedOnError (.unmappedAddressError 0xFFFE)) = true := by decide

/-- Vector T11 (R212): POP HL. -/
theorem test_vector_T11 :
    stepAnswers { ((program 0 [0xE1]).pokeByte 0x9FFE 0x34).pokeByte 0x9FFF 0x12 with sp := 0x9FFE }
      (fun t => t.h == 0x12 && t.l == 0x34 && t.sp == 0xA000 && t.pc == 0x0001) = true := by decide

/-- Vector T13 (R212): POP DE. -/
theorem test_vector_T13 :
    stepAnswers { (program 0 [0xD1]).pokeByte 0x9FFF 0x77 with sp := 0x9FFF }
      (fun t => t.engine == .haltedOnError (.unmappedAddressError 0xA000)) = true := by decide

/-- Vector T14 (R213): POP AF. -/
theorem test_vector_T14 :
    stepAnswers { ((program 0 [0xF1]).pokeByte 0x9FFE 0xFF).pokeByte 0x9FFF 0x12 with sp := 0x9FFE }
      (fun t => t.a == 0x12 && t.f == 0xF0 && t.sp == 0xA000 && t.pc == 0x0001) = true := by decide

/-- Vector O1 (R215): RLC B. -/
theorem test_vector_O1 :
    stepAnswers { program 0 [0xCB, 0x00] with b := 0x85, f := 0xE0 }
      (fun t => t.f == 0x10 && t.b == 0x0B && t.pc == 0x0002) = true := by decide

/-- Vector O4 (R216): RLC (HL). -/
theorem test_vector_O4 :
    stepAnswers { (program 0 [0xCB, 0x06]).pokeByte 0x8000 0x01 with h := 0x80, l := 0x00 }
      (fun t => t.pc == 0x0002 && t.readByte 0x8000 == some 0x02) = true := by decide

/-- Vector O5 (R217): RRC C. -/
theorem test_vector_O5 :
    stepAnswers { program 0 [0xCB, 0x09] with c := 0x01, f := 0x00 }
      (fun t => t.f == 0x10 && t.c == 0x80 && t.pc == 0x0002) = true := by decide

/-- Vector O7 (R218): RRC (HL). -/
theorem test_vector_O7 :
    stepAnswers { (program 0 [0xCB, 0x0E]).pokeByte 0xFF00 0x81 with h := 0xFF, l := 0x00 }
      (fun t => t.f == 0x10 && t.pc == 0x0002 && t.readByte 0xFF00 == some 0xC0) = true := by decide

/-- Vector O8 (R219): RL C. -/
theorem test_vector_O8 :
    stepAnswers { program 0 [0xCB, 0x11] with c := 0x85, f := 0x00 }
      (fun t => t.f == 0x10 && t.c == 0x0A && t.pc == 0x0002) = true := by decide

/-- Vector O11 (R220): RL (HL). -/
theorem test_vector_O11 :
    stepAnswers { (program 0 [0xCB, 0x16]).pokeByte 0x8000 0x00 with h := 0x80, l := 0x00, f := 0x10 }
      (fun t => t.f == 0x00 && t.pc == 0x0002 && t.readByte 0x8000 == some 0x01) = true := by decide

/-- Vector O12 (R221): RR E. -/
theorem test_vector_O12 :
    stepAnswers { program 0 [0xCB, 0x1B] with e := 0x01, f := 0x00 }
      (fun t => t.f == 0x90 && t.e == 0x00 && t.pc == 0x0002) = true := by decide

/-- Vector O14 (R222): RR (HL). -/
theorem test_vector_O14 :
    stepAnswers { (program 0 [0xCB, 0x1E]).pokeByte 0x8000 0x02 with h := 0x80, l := 0x00, f := 0x10 }
      (fun t => t.f == 0x00 && t.pc == 0x0002 && t.readByte 0x8000 == some 0x81) = true := by decide

/-- Vector O15 (R223): RLCA. -/
theorem test_vector_O15 :
    stepAnswers { program 0 [0x07] with a := 0x85, f := 0xE0 }
      (fun t => t.a == 0x0B && t.f == 0x10 && t.pc == 0x0001) = true := by decide

/-- Vector O17 (R224): RRCA. -/
theorem test_vector_O17 :
    stepAnswers { program 0 [0x0F] with a := 0x01 }
      (fun t => t.a == 0x80 && t.f == 0x10 && t.pc == 0x0001) = true := by decide

/-- Vector O18 (R225): RLA. -/
theorem test_vector_O18 :
    stepAnswers { program 0 [0x17] with a := 0x80, f := 0x00 }
      (fun t => t.a == 0x00 && t.f == 0x90 && t.pc == 0x0001) = true := by decide

/-- Vector O20 (R226): RRA. -/
theorem test_vector_O20 :
    stepAnswers { program 0 [0x1F] with a := 0x01, f := 0x00 }
      (fun t => t.a == 0x00 && t.f == 0x90 && t.pc == 0x0001) = true := by decide

/-- Vector O22 (R227): SLA B. -/
theorem test_vector_O22 :
    stepAnswers { program 0 [0xCB, 0x20] with b := 0x80, f := 0x00 }
      (fun t => t.f == 0x90 && t.b == 0x00 && t.pc == 0x0002) = true := by decide

/-- Vector O24 (R228): SLA (HL). -/
theorem test_vector_O24 :
    stepAnswers { (program 0 [0xCB, 0x26]).pokeByte 0x8000 0x41 with h := 0x80, l := 0x00 }
      (fun t => t.pc == 0x0002 && t.readByte 0x8000 == some 0x82) = true := by decide

/-- Vector O25 (R229): SRA D. -/
theorem test_vector_O25 :
    stepAnswers { program 0 [0xCB, 0x2A] with d := 0x8A, f := 0x00 }
      (fun t => t.d == 0xC5 && t.pc == 0x0002) = true := by decide

/-- Vector O28 (R230): SRA (HL). -/
theorem test_vector_O28 :
    stepAnswers { (program 0 [0xCB, 0x2E]).pokeByte 0x8000 0x80 with h := 0x80, l := 0x00 }
      (fun t => t.pc == 0x0002 && t.readByte 0x8000 == some 0xC0) = true := by decide

/-- Vector O29 (R231): SRL A. -/
theorem test_vector_O29 :
    stepAnswers { program 0 [0xCB, 0x3F] with a := 0x01 }
      (fun t => t.a == 0x00 && t.f == 0x90 && t.pc == 0x0002) = true := by decide

/-- Vector O31 (R232): SRL (HL). -/
theorem test_vector_O31 :
    stepAnswers { (program 0 [0xCB, 0x3E]).pokeByte 0x8000 0x80 with h := 0x80, l := 0x00 }
      (fun t => t.pc == 0x0002 && t.readByte 0x8000 == some 0x40) = true := by decide

/-- Reset, nothing placed: the first step fetches the zero fill, which has no row (R54, R108, R110). -/
theorem test_reset_run :
    stepAnswers State.reset (fun t => t.engine == .haltedOnError (.decodeError 0 0) && t.pc == 1) = true := by decide

/-- What the host asks: a placed word runs as the first instruction. -/
theorem test_withFetchWord :
    stepAnswers (State.reset.withFetchWord 16 0xCB7C) (fun t => t.f == 0xA0 && t.pc == 2) = true := by decide

/-! ### Witnesses: for every statement with hypotheses, states and operands that meet all of them together -/

/-- A running state with HL and SP in video RAM, a byte there, and Carry set. -/
def inVram : State :=
  { State.reset with h := 0x80, l := 0x00, sp := 0x9000, pc := 0x0010, f := 0x10, mem := [(0x8000, 0xAB)] }

theorem inVram_inv : inVram.Inv := ⟨by decide, by decide, by decide, by decide⟩

/-- The same with HL and SP at the first unmapped address above video RAM and 0x8001. -/
def aboveVram : State := { inVram with h := 0xA0, l := 0x00, sp := 0x8001 }

theorem aboveVram_inv : aboveVram.Inv := ⟨by decide, by decide, by decide, by decide⟩

/-- HL in ROM: it reads and takes no store. -/
def inRom : State := { inVram with h := 0x00, l := 0xFF, sp := 0x00FF }

theorem inRom_inv : inRom.Inv := ⟨by decide, by decide, by decide, by decide⟩

theorem witness_DecodeInvertsEncode :
    (Instr.callA16 0x1234).wellFormed launchConfig = true ∧ Instr.srlIndHl.wellFormed launchConfig = true := by decide

theorem witness_DecodedBytesAreTheEncoding :
    decode launchConfig [0xCD, 0x34, 0x12, 0x99] = .instr (.callA16 0x1234) [0x99] ∧
    decode launchConfig [0xCB, 0x7C] = .instr .bit7H [] := by decide

theorem witness_AbsentKeysRaiseDecodeError_plain :
    (program 0 [0x00]).Running ∧ (program 0 [0x00]).readByte 0 = some 0x00 ∧ 0x00 ∈ absentPlain ∧
    (program 0xFF [0xFD]).Running ∧ (program 0xFF [0xFD]).readByte 0xFF = some 0xFD ∧ 0xFD ∈ absentPlain := by decide

theorem witness_AbsentKeysRaiseDecodeError_prefixed :
    (program 0 [0xCB, 0x30]).Running ∧ (program 0 [0xCB, 0x30]).readByte 0 = some 0xCB ∧
    (program 0 [0xCB, 0x30]).readByte 1 = some 0x30 ∧ AbsentSecond 0x30 ∧ AbsentSecond 0x37 ∧ AbsentSecond 0x80 ∧
    AbsentSecond 0xFF := by unfold AbsentSecond; decide

theorem witness_AbsentKeysRaiseDecodeError_present :
    launchConfig.decidedRowsPresent = true ∧ (0x01 : Byte) ≠ 0xCB ∧ 0x01 ∉ absentPlain ∧ 0xFE ∉ absentPlain ∧
    ¬ AbsentSecond 0x00 ∧ ¬ AbsentSecond 0x2F ∧ ¬ AbsentSecond 0x38 ∧ ¬ AbsentSecond 0x7F := by
  unfold AbsentSecond; decide

theorem witness_StepRunsTheDecodedInstruction :
    (program 0xFE [0x3E, 0x55]).Running ∧
    decode (program 0xFE [0x3E, 0x55]).config (program 0xFE [0x3E, 0x55]).window = .instr (.ldAD8 0x55) [] := by decide

theorem witness_TruncatedInstructionFaultsAtTheMissingByte :
    (program 0xFF [0x21]).Running ∧
    decode (program 0xFF [0x21]).config (program 0xFF [0x21]).window = .truncated ∧
    decode (program 0xFF [0xCB]).config (program 0xFF [0xCB]).window = .truncated ∧
    decode (program 0x100 []).config (program 0x100 []).window = .truncated := by decide

theorem witness_RunningStepAnswersNext : State.reset.Running ∧ inVram.Running := by decide

theorem witness_HaltedEngineIsTerminal :
    (State.reset.raise (.decodeError 0 0)).engine = .haltedOnError (.decodeError 0 0) := by decide

theorem witness_InstructionsRaiseOnlyMemoryAndJumpErrors :
    inVram.Running ∧ inVram.config.wf = true ∧ aboveVram.Running ∧ (∃ t, exec .ldAIndHl inVram = .next t ∧ t.Running) ∧
    (∃ t, exec .ldAIndHl aboveVram = .next t ∧ t.engine = .haltedOnError (.unmappedAddressError 0xA000)) ∧
    ∃ t, exec (.jrE8 0x80) inVram = .next t ∧ t.engine = .haltedOnError (.invalidJumpError 0x11 (-128)) :=
  ⟨by decide, by decide, by decide, ⟨_, rfl, by decide⟩, ⟨_, rfl, by decide⟩, ⟨_, rfl, by decide⟩⟩

theorem witness_InvalidJumpsAreBelowZero :
    (program 0 [0x18, 0xFD]).Running ∧ (program 0 [0x18, 0xFD]).config.wf = true ∧
    ∃ t, step (program 0 [0x18, 0xFD]) = .next t ∧ t.engine = .haltedOnError (.invalidJumpError 2 (-3)) :=
  ⟨by decide, by decide, ⟨_, rfl, by decide⟩⟩

/-- INC A in the last byte of IO: `pc` becomes 0xFF80, the bound. -/
theorem witness_SequentialPcNeverWraps :
    (program 0xFF7F [0x3C]).Running ∧ (program 0xFF7F [0x3C]).config.wf = true ∧
    decode (program 0xFF7F [0x3C]).config (program 0xFF7F [0x3C]).window = .instr .incA [] ∧
    transfersControl .incA = false ∧
    ∃ t, step (program 0xFF7F [0x3C]) = .next t ∧ t.Running ∧ t.pc = 0xFF80 :=
  ⟨by decide, by decide, by decide, by decide, ⟨_, rfl, by decide, by decide⟩⟩

theorem witness_SequentialInstructionsMovePcPastOperands :
    transfersControl (.ldHlD16 0x1234) = false ∧ ∃ t, exec (.ldHlD16 0x1234) State.reset = .next t ∧ t.Running ∧ t.pc = 2 :=
  ⟨by decide, ⟨_, rfl, by decide, by decide⟩⟩

theorem witness_StepKeepsTheInvariant : inVram.Inv ∧ ∃ t, step inVram = .next t := ⟨inVram_inv, ⟨_, rfl⟩⟩

theorem witness_ResetState_readable : Readable launchConfig 0xFF ∧ Readable launchConfig 0x9FFF ∧
    Readable launchConfig 0xFF7F ∧ ¬ Readable launchConfig 0x100 := by decide

theorem witness_StepKeepsRomAndParameters :
    (∃ t, step (program 0 [0x3C]) = .next t) ∧ (0xFF : Word).toNat < (program 0 [0x3C]).config.romSize :=
  ⟨⟨_, rfl⟩, by decide⟩

theorem witness_ConstructionBuildsTheEngine :
    launchConfig.wf = true ∧ launchConfig.romSize < (List.replicate 257 (0x3C : Byte)).length ∧
    (List.replicate 256 (0x3C : Byte)).length ≤ launchConfig.romSize ∧ (0x00FF : Word).toNat < launchConfig.romSize :=
  ⟨by decide, by rw [List.length_replicate]; decide, by rw [List.length_replicate]; decide, by decide⟩

theorem witness_ResetInputRestartsAtAddressZero : inVram.Inv := inVram_inv

theorem witness_OnlyListedInstructionsWriteSp :
    writesSp .incA = false ∧ writesSp .incSp = true ∧ ∃ t, exec .incA inVram = .next t := ⟨rfl, rfl, ⟨_, rfl⟩⟩

theorem witness_OnlyListedInstructionsWriteFlags :
    writesFlags .pushAf = false ∧ writesFlags .popAf = true ∧ ∃ t, exec .pushAf inVram = .next t := ⟨rfl, rfl, ⟨_, rfl⟩⟩

/-- R53 at every boundary. -/
theorem witness_UnmappedRangesTakeNoAccess :
    inVram.config.wf = true ∧
    ([0x0100, 0x7FFF, 0xA000, 0xFEFF, 0xFF80, 0xFFFF] : List Word).all (fun a => inVram.readByte a == none) = true ∧
    ([0x0000, 0x00FF, 0x8000, 0x9FFF, 0xFF00, 0xFF7F] : List Word).all (fun a => (inVram.readByte a).isSome) = true := by
  decide

theorem witness_ByteWritesStoreInVramAndIoOnly :
    inVram.Inv ∧ ([0x8000, 0x9FFF, 0xFF00, 0xFF7F] : List Word).all (fun a => decide (Storable a)) = true ∧
    ([0x0000, 0x7FFF, 0xA000, 0xFEFF, 0xFF80, 0xFFFF] : List Word).all (fun a => decide (¬ Storable a)) = true :=
  ⟨inVram_inv, by decide, by decide⟩

theorem witness_PairWritesReadBack : Pair.bc ≠ .af ∧ Pair.hl ≠ .af := by decide

/-- Both clauses of the loads through HL: LoadRegisterFromHl, LoadAAndMoveHl, CompareWithA, AddToA, SubtractFromA,
ExclusiveOrIntoA, AndIntoA, OrIntoA, TestBit. -/
theorem witness_LoadRegisterFromHl :
    inVram.readByte (hlAddress inVram) = some 0xAB ∧ operandValue inVram .indHl = some 0xAB ∧
    inRom.readByte (hlAddress inRom) = some 0 ∧ operandValue inVram (.reg .h) = some 0x80 ∧
    aboveVram.readByte (hlAddress aboveVram) = none ∧ operandValue aboveVram .indHl = none := by decide

/-- Both clauses of the stores through HL: StoreImmediateAtHl, StoreRegisterAtHl, StoreAAndMoveHl. -/
theorem witness_StoreRegisterAtHl :
    inVram.Inv ∧ Storable (hlAddress inVram) ∧ aboveVram.Inv ∧ ¬ Storable (hlAddress aboveVram) ∧
    inRom.Inv ∧ ¬ Storable (hlAddress inRom) :=
  ⟨inVram_inv, by decide, aboveVram_inv, by decide, inRom_inv, by decide⟩

/-- `MissingOperandHalts` for a one-byte and for a two-byte immediate, at every byte that can be missing: the opcode is the
last ROM byte, or the last but one. -/
theorem witness_MissingOperandHalts :
    (program 0xFF [0x3E]).Running ∧ (Instr.ldAD8 0x77).wellFormed launchConfig = true ∧
    0 < (Instr.ldAD8 0x77).operandLength ∧
    (program 0xFF [0x3E]).window = (encode (.ldAD8 0x77)).take ((Instr.ldAD8 0x77).opcodeLength + 0) ∧
    (program 0xFF [0x21]).window = (encode (.ldHlD16 0x1234)).take ((Instr.ldHlD16 0x1234).opcodeLength + 0) ∧
    1 < (Instr.ldHlD16 0x1234).operandLength ∧
    (program 0xFE [0x21, 0x34]).window = (encode (.ldHlD16 0x1234)).take ((Instr.ldHlD16 0x1234).opcodeLength + 1) := by
  decide

/-- The same for the other instructions with an immediate that a statement names, each at its last missing byte. -/
theorem witness_MissingOperandHalts_each :
    ([(.ldIndHlD8 0, 0), (.addAD8 0, 0), (.subD8 0, 0), (.cpD8 0, 0), (.andD8 0, 0), (.xorD8 0, 0), (.orD8 0, 0),
      (.ldhAIndA8 0, 0), (.ldhIndA8A 0, 0), (.jrNzE8 0, 0), (.ldAIndA16 0, 1), (.ldIndA16A 0, 1), (.jpCA16 0, 1),
      (.callA16 0, 1)] : List (Instr × Nat)).all (fun row =>
        let shown := (encode row.1).take (row.1.opcodeLength + row.2)
        row.1.wellFormed launchConfig && decide (row.2 < row.1.operandLength) &&
          (program (0x100 - shown.length) shown).window == shown) = true := by decide

theorem witness_LoadWideImmediate : Wide.hl ≠ .sp ∧ Wide.bc ≠ .sp := by decide

theorem witness_LoadAThroughPair :
    { inVram with b := 0x9F, c := 0xFF }.readByte 0x9FFF = some 0 ∧
    { inVram with b := 0xA0, c := 0x00 }.readByte 0xA000 = none ∧
    { inVram with d := 0xFF, e := 0x00 }.readByte 0xFF00 = some 0 ∧
    { inVram with d := 0xFE, e := 0xFF }.readByte 0xFEFF = none := by decide

theorem witness_StoreAThroughPair :
    inVram.Inv ∧ Storable 0x8000 ∧ ¬ Storable 0x7FFF ∧ Storable 0x9FFF ∧ ¬ Storable 0xA000 :=
  ⟨inVram_inv, by decide, by decide, by decide, by decide⟩

theorem witness_LoadAndStoreAAbsolute :
    inVram.Inv ∧ inVram.readByte 0x8000 = some 0xAB ∧ inVram.readByte 0xFFFF = none ∧ Storable 0xFF7F ∧
    ¬ Storable 0xC000 := ⟨inVram_inv, by decide, by decide, by decide, by decide⟩

/-- The I/O-mapped forms at the two sides of the bound. -/
theorem witness_LoadAndStoreAInIo :
    inVram.Inv ∧ inVram.config.wf = true ∧ inVram.readByte (BitVec.ofNat 16 (0xFF00 + 0x7F)) = some 0 ∧
    inVram.readByte (BitVec.ofNat 16 (0xFF00 + 0x80)) = none ∧ Storable (BitVec.ofNat 16 (0xFF00 + 0x7F)) ∧
    ¬ Storable (BitVec.ofNat 16 (0xFF00 + 0x80)) :=
  ⟨inVram_inv, by decide, by decide, by decide, by decide, by decide⟩

/-- Both clauses of `ModifiesOperand`: IncrementOperand, DecrementOperand, RotateOperand, ShiftOperand; and
IncrementThenDecrementRestores. -/
theorem witness_ModifiesOperand :
    inVram.Inv ∧ operandValue inVram .indHl = some 0xAB ∧ OperandStorable inVram .indHl ∧
    operandValue inVram (.reg .a) = some 0 ∧ OperandStorable inVram (.reg .a) ∧ aboveVram.Inv ∧
    ¬ OperandStorable aboveVram .indHl ∧ inRom.Inv ∧ ¬ OperandStorable inRom .indHl :=
  ⟨inVram_inv, by decide, by decide, by decide, trivial, aboveVram_inv, by decide, inRom_inv, by decide⟩

theorem witness_RotateAccumulator_parameter :
    ({ inVram with config := { launchConfig with accRotateZFromResult := false } }).config.wf = true ∧
    inVram.config.accRotateZFromResult = true := by decide

/-- The three clauses of JR: a target at 0, a target at -1, and a condition that does not hold; and the largest target. -/
theorem witness_RelativeJump :
    CondHolds inVram none ∧ CondHolds inVram (some .nz) ∧ CondHolds inVram (some .c) ∧ ¬ CondHolds inVram (some .z) ∧
    ¬ CondHolds inVram (some .nc) ∧
    (((inVram.pc + 1).toNat : Int) + signedValue 0xEF = 0 ∧ ((inVram.pc + 1).toNat : Int) + signedValue 0xEE < 0) ∧
    ((({ inVram with pc := 0xFF7F }).pc + 1).toNat : Int) + signedValue 0x7F = 0xFFFF ∧
    ((({ inVram with pc := 0xFF80 }).pc + 1).toNat : Int) + signedValue 0x7F > 0xFFFF := by decide

theorem witness_AbsoluteJump : CondHolds inVram (some .c) ∧ ¬ CondHolds inVram (some .z) := by decide

/-- The clauses of a push: CallPushesTheReturnAddress, PushStoresThePair, PushThenPopMovesThePair, at the bounds of R284. -/
theorem witness_CallPushesTheReturnAddress :
    inVram.Inv ∧ CondHolds inVram (some .nz) ∧ Pushable inVram.sp ∧ aboveVram.Inv ∧ ¬ Pushable aboveVram.sp ∧
    ([0x8002, 0xA000, 0xFF02, 0xFF80] : List Word).all (fun sp => decide (Pushable sp)) = true ∧
    ([0x0000, 0x8001, 0xA001, 0xFF01, 0xFF81] : List Word).all (fun sp => decide (¬ Pushable sp)) = true ∧
    (¬ Storable ((0x8001 : Word) - 2) ∧ Storable ((0xA001 : Word) - 2)) :=
  ⟨inVram_inv, by decide, by decide, aboveVram_inv, by decide, by decide, by decide, by decide⟩

/-- The clauses of a pop: ReturnPopsPc, PopLoadsThePair: both bytes readable, the first not, the second not. -/
theorem witness_ReturnPopsPc :
    CondHolds inVram (some .c) ∧ { inVram with sp := 0x9FFE }.readByte 0x9FFE = some 0 ∧
    { inVram with sp := 0x9FFE }.readByte 0x9FFF = some 0 ∧ { inVram with sp := 0xA000 }.readByte 0xA000 = none ∧
    { inVram with sp := 0x9FFF }.readByte 0x9FFF = some 0 ∧
    { inVram with sp := 0x9FFF }.readByte ((0x9FFF : Word) + 1) = none ∧ ¬ CondHolds inVram (some .z) := by decide

/-- After CALL 0x0020 a state whose SP and stack bytes are as the CALL left them. -/
theorem witness_ReturnResumesAfterTheCall :
    inVram.Inv ∧ CondHolds inVram none ∧ Pushable inVram.sp ∧
    ∃ t, exec (.callA16 0x0020) inVram = .next t ∧ t.sp = 0x8FFE ∧ t.readByte 0x8FFE = some 0x12 ∧
      t.readByte 0x8FFF = some 0x00 ∧ CondHolds t (some .c) :=
  ⟨inVram_inv, trivial, by decide, ⟨_, rfl, by decide, by decide, by decide, by decide⟩⟩

theorem witness_PushThenPopMovesThePair : inVram.Inv ∧ Pushable inVram.sp ∧ Pair.bc ≠ .af :=
  ⟨inVram_inv, by decide, by decide⟩

theorem witness_PushNeedsAStackInVramOrIo :
    State.reset.config.wf = true ∧ State.reset.Running ∧ State.reset.sp = 0 ∧ Pushable inVram.sp := by decide

/-- Every clause of DebuggerOnlyDelaysOrEndsTheRun. -/
def debugged : State := { inVram with config := { launchConfig with debugEnabled := true } }

/-- An enabled breakpoint with id 1 at `pc` of `debugged`. -/
def armed : Debugger := { breakpoints := [{ id := 1, address := 0x0010, enabled := true }], nextId := 2, stepMode := false }

theorem witness_DebuggerOnlyDelaysOrEndsTheRun :
    (∃ d r, hostedCycle [.infoRegisters, .resume] armed debugged = .cycle d r) ∧
    (∃ d s, hostedCycle [.infoRegisters] armed debugged = .paused d s) ∧
    hostedCycle [.kill] armed debugged = .killed ∧ inVram.config.debugEnabled = false ∧
    (armed.stepMode = false ∧ ∀ bp ∈ armed.breakpoints, bp.enabled = true → bp.address ≠ 0x0011) ∧
    debugged.Running ∧ debugged.config.debugEnabled = true ∧
    (∃ bp ∈ armed.breakpoints, bp.enabled = true ∧ bp.address = debugged.pc) ∧ Debugger.initial.stepMode = true :=
  ⟨⟨_, _, rfl⟩, ⟨_, _, rfl⟩, rfl, by decide, by decide, by decide, by decide, by decide, by decide⟩

/-- R263, `step mode cleared or kept`: with step mode off at a breakpoint, `step` leaves it off; with it on, `continue` clears it. -/
theorem test_step_keeps_step_mode : (armed.command debugged .stepOne).1 = .resumed armed ∧
    (Debugger.initial.command debugged .stepOne).1 = .resumed Debugger.initial := by decide

theorem test_continue_clears_step_mode :
    (Debugger.initial.command debugged .resume).1 = .resumed { Debugger.initial with stepMode := false } := by decide

theorem witness_StepDoesNotReadTheDebugSwitch :
    (∃ t, step (program 0xFE [0x3E, 0x55]) = .next t ∧ t.Running) ∧
    ∃ r, step { inVram with engine := .haltedOnError (.decodeError 0 0) } = .fault r :=
  ⟨⟨_, rfl, by decide⟩, ⟨_, rfl⟩⟩

/-- A machine without the decided rows (U9), and bytes at address 0. -/
def undecided (bytes : List Byte) : State :=
  { program 0 bytes with config := { launchConfig with decidedRowsPresent := false } }

/-- The clauses of DecidedRowsAreAbsentWithoutTheParameter over states. -/
theorem witness_DecidedRowsAreAbsentWithoutTheParameter :
    (undecided [0x80]).Running ∧ (undecided [0x80]).config.decidedRowsPresent = false ∧
    (undecided [0x80]).readByte (undecided [0x80]).pc = some 0x80 ∧
    (undecided [0xCB, 0x38]).readByte 0 = some 0xCB ∧ (undecided [0xCB, 0x38]).readByte (0 + 1) = some 0x38 := by decide

/-- The keys of its clauses, at the ends of their ranges. -/
theorem witness_DecidedRowsAreAbsentWithoutTheParameter_keys :
    (([0x07, 0x1F, 0x80, 0x87, 0x90, 0x97, 0xA0, 0xA7, 0xB0, 0xB7, 0xC6, 0xF6] : List Byte).all
      fun op => decide (DecidedPlain op)) = true ∧
    (([0x06, 0x20, 0xA8, 0xAF, 0xB8, 0xFE] : List Byte).all
      fun op => decide (op ≠ 0xCB ∧ op.toNat ∉ absentPlain ∧ ¬ DecidedPlain op)) = true ∧
    (([0x20, 0x2F, 0x38, 0x3F] : List Byte).all fun second => decide (DecidedSecond second)) = true ∧
    ¬ AbsentSecond 0x1F ∧ ¬ DecidedSecond 0x1F ∧ ¬ AbsentSecond 0x40 ∧ ¬ DecidedSecond 0x40 := by
  unfold AbsentSecond; decide

/-- U9 counts 40 plain and 24 prefixed decided rows. -/
theorem test_decided_keys_counted :
    ((List.range 256).filter fun k => (plainRow (BitVec.ofNat 8 k)).any Row.decided).length = 40 ∧
    ((List.range 256).filter fun k => (prefixedRow (BitVec.ofNat 8 k)).any Row.decided).length = 24 := by decide

end Sys2Proof.Tests
end

section
/-! Register pairs: a written pair reads back and is framed by its own registers (R22, R27). -/

namespace Sys2Proof.Proofs

open Sys2Proof Sys2Proof.Machine

/-- What F stores of the low byte (R27), as a mask on the whole word. -/
theorem wordOf_flagBits (hi lo : Byte) : wordOf hi (flagBits lo) = wordOf hi lo &&& 0xFFF0 := by
  have mask : (0xFFF0 : Word) = (0xFF : Byte) ++ (0xF0 : Byte) := by decide
  have keep : hi &&& (0xFF : Byte) = hi := BitVec.and_allOnes
  rw [wordOf, wordOf, flagBits, mask, BitVec.and_append, keep]

/-- AF reads back what was written to it, without bits 3:0 of F (R22, R27). -/
theorem getPair_setPair_af (s : State) (v : Word) : (s.setPair .af v).getPair .af = v &&& 0xFFF0 :=
  calc (s.setPair .af v).getPair .af
    _ = wordOf (hiByte v) (flagBits (loByte v)) := rfl
    _ = wordOf (hiByte v) (loByte v) &&& 0xFFF0 := wordOf_flagBits _ _
    _ = v &&& 0xFFF0 := by rw [wordOf_hiByte_loByte]

/-- Only a write to AF reaches F (R21). -/
theorem setPair_f_of_ne_af (s : State) {p : Pair} (hp : p ≠ .af) (v : Word) : (s.setPair p v).f = s.f := by
  cases p with
  | af => exact absurd rfl hp
  | bc | de | hl => rfl

/-- A write of a pair other than AF has a plain frame: its own two registers (R22). -/
theorem plainFrame_setPair (s : State) {p : Pair} (hp : p ≠ .af) (v : Word) :
    PlainFrame s (s.setPair p v) (pairRegs p) [] 0 where
  toFrame := frame_setPair s p v
  flags := setPair_f_of_ne_af s hp v
  sp := s.setPair_sp p v
  pc := by simp

/-- Settles O22: the read-back and the frame of a pair write, with AF apart because F keeps its bits 3:0 at zero. -/
theorem pairWritesReadBack : Obligations.PairWritesReadBack := by
  intro s p v
  exact ⟨fun hp => ⟨s.getPair_setPair p hp v, plainFrame_setPair s hp v⟩,
    getPair_setPair_af s v, s.setPair_sp .af v, s.setPair_pc .af v, frame_setPair s .af v⟩

end Sys2Proof.Proofs
end

section
/-! The memory map and the byte access: which addresses read and take a write (R51, R53), and what a byte write does
(R59). -/

namespace Sys2Proof.Proofs

open Sys2Proof Sys2Proof.Machine

/-! ### The unmapped ranges -/

/-- With ROM ending below VRAM (R5, R51), the addresses outside the three regions are the three gaps of the map (R53). -/
theorem not_readable_iff {cfg : Config} (hc : cfg.wf = true) (addr : Word) :
    ¬ Readable cfg addr ↔ (cfg.romSize ≤ addr.toNat ∧ addr.toNat ≤ 0x7FFF) ∨
      (0xA000 ≤ addr.toNat ∧ addr.toNat ≤ 0xFEFF) ∨ 0xFF80 ≤ addr.toNat := by
  have hrom : cfg.romSize ≤ 0x8000 := by
    simp only [Config.wf, Bool.and_eq_true, decide_eq_true_eq] at hc
    exact hc.2
  omega

/-- An address takes no store exactly when it is in ROM or in none of the regions (R51, R53). -/
theorem not_storable_iff {cfg : Config} (hc : cfg.wf = true) (addr : Word) :
    ¬ Storable addr ↔ addr.toNat < cfg.romSize ∨ ¬ Readable cfg addr := by
  constructor
  · intro hs
    by_cases hrom : addr.toNat < cfg.romSize
    · exact .inl hrom
    · exact .inr fun hr => hr.elim hrom hs
  · rintro (hrom | hr) hs
    · exact not_rom_of_storable hc hs hrom
    · exact hr (.inr hs)

/-- In a machine with a legal `ROM_SIZE` a byte write fails exactly outside VRAM and IO (R59). -/
theorem writeByte_eq_none_iff {s : State} (hc : s.config.wf = true) (addr : Word) (v : Byte) :
    s.writeByte addr v = none ↔ ¬ Storable addr := by
  rw [← writeByte_isSome_iff hc addr v, ← Option.ne_none_iff_exists', not_not]

/-- Settles O20: the addresses that do not read are those outside the three regions, and the addresses that take no write
are these and ROM. -/
theorem unmappedRangesTakeNoAccess : Obligations.UnmappedRangesTakeNoAccess := by
  intro s addr v hc
  have hgaps := not_readable_iff hc addr
  exact ⟨(readByte_eq_none_iff s addr).trans hgaps,
    ((writeByte_eq_none_iff hc addr v).trans (not_storable_iff hc addr)).trans (or_congr_right hgaps)⟩

/-! ### A byte write -/

/-- A byte write has a plain frame: its own address (R68). -/
theorem plainFrame_writeByte {s t : State} {addr : Word} {v : Byte} (h : s.writeByte addr v = some t) :
    PlainFrame s t [] [addr] 0 := by
  obtain ⟨hf, hsp, hpc, -⟩ := writeByte_fields h
  exact { toFrame := frame_writeByte h, flags := hf, sp := hsp, pc := by simp [hpc] }

/-- Settles O21: at a storable address the write answers, reads back and is framed by that address; elsewhere it faults. -/
theorem byteWritesStoreInVramAndIoOnly : Obligations.ByteWritesStoreInVramAndIoOnly := by
  intro s addr v rest hinv
  constructor
  · intro hs
    obtain ⟨t, ht⟩ := (writeByte_isSome_iff hinv.romSize addr v).2 hs
    exact ⟨t, ht, writeByteThen_some ht rest, readByte_writeByte_same hinv.canonical ht, plainFrame_writeByte ht⟩
  · intro hs
    exact writeByteThen_none (writeByte_of_not_storable hs v) rest

end Sys2Proof.Proofs
end

section
/-! The keys with no row (R108 to R110), and the step that fetches one (R243). -/

namespace Sys2Proof.Proofs

open Sys2Proof Sys2Proof.Machine

/-! ### Keys and the dispatch table -/

/-- The key of a plain opcode is the opcode widened to 16 bits (R92). -/
theorem plainKey_eq_setWidth (op : Byte) : plainKey op = BitVec.setWidth 16 op := by
  rw [plainKey, wordOf, BitVec.setWidth_eq_append (by decide)]
  rfl

/-- The key of a prefixed opcode is `0xCB00 | second_byte` (R92). -/
theorem prefixedKey_eq_or (second : Byte) : prefixedKey second = 0xCB00 ||| BitVec.setWidth 16 second := by
  rw [prefixedKey, wordOf, BitVec.append_def]
  rfl

theorem dispatchTable_plainKey (op : Byte) : dispatchTable (plainKey op) = plainRow op := by
  have hne : (0 : Byte) ≠ prefixByte := by decide
  rw [dispatchTable, hiByte_plainKey, loByte_plainKey, if_neg hne, if_pos rfl]

theorem dispatchTable_prefixedKey (second : Byte) : dispatchTable (prefixedKey second) = prefixedRow second := by
  rw [dispatchTable, hiByte_prefixedKey, loByte_prefixedKey, if_pos rfl]

/-- To show something of every opcode byte it is enough to show it for every value of its fields `x`, `y` and `z` (R95). -/
theorem byte_of_fields {P : Byte → Prop} (h : ∀ (x : Fin 4) (y z : Fin 8), P (BitVec.ofNat 8 (64 * x + 8 * y + z)))
    (op : Byte) : P op := by
  have hop : op = BitVec.ofNat 8 (64 * (op.toNat / 64) + 8 * (op.toNat / 8 % 8) + op.toNat % 8) := by
    apply BitVec.eq_of_toNat_eq
    rw [BitVec.toNat_ofNat]
    omega
  rw [hop]
  exact h ⟨op.toNat / 64, by omega⟩ ⟨op.toNat / 8 % 8, by omega⟩ ⟨op.toNat % 8, by omega⟩

/-- The 55 opcodes of R108 and 0xCB, and no others, have no plain row: the two tables agree byte by byte. -/
theorem plainRow_eq_none_iff (op : Byte) : plainRow op = none ↔ op = prefixByte ∨ op.toNat ∈ absentPlain := by
  induction op using byte_of_fields with
  | h x y z => revert x y z; decide

/-- The 136 second bytes of R110, and no others, have no prefixed row. -/
theorem prefixedRow_eq_none_iff (second : Byte) : prefixedRow second = none ↔ AbsentSecond second := by
  unfold AbsentSecond
  induction second using byte_of_fields with
  | h x y z => revert x y z; decide

/-! ### The lookup -/

/-- The parameters add no row (U9). -/
theorem lookup_eq_none_of_dispatchTable {key : Word} (h : dispatchTable key = none) (cfg : Config) :
    lookup cfg key = none := by
  rw [lookup, h]

/-- With the decided rows present the lookup is the table's own (R103, U9). -/
theorem lookup_eq_dispatchTable {cfg : Config} (hc : cfg.decidedRowsPresent = true) (key : Word) :
    lookup cfg key = dispatchTable key := by
  unfold lookup
  cases dispatchTable key with
  | none => rfl
  | some row => simp [hc]

theorem lookup_isSome_of_dispatchTable {cfg : Config} (hc : cfg.decidedRowsPresent = true) {key : Word}
    (h : dispatchTable key ≠ none) : (lookup cfg key).isSome = true := by
  rw [lookup_eq_dispatchTable hc, Option.isSome_iff_ne_none]
  exact h

/-! ### The step at a lookup miss -/

/-- A running step whose fetch takes a fault ends in the state the fault left (R246). -/
theorem step_of_fetch_raised {s t : State} (hrun : s.Running) (hf : fetch s = .raised t) : step s = .next t := by
  simp only [step, hrun, hf]

/-- A miss is DecodeError with the key and the address it was fetched from; nothing else of the state changes (R110). -/
theorem dispatchKey_miss {s : State} {key : Word} (h : lookup s.config key = none) (instrAddr : Word) :
    dispatchKey key instrAddr s = .raised (s.raise (.decodeError key instrAddr)) := by
  rw [dispatchKey, h]

/-- A plain opcode goes to the lookup with `pc` one further (R100). -/
theorem fetch_plain {s : State} {op : Byte} (hop : s.readByte s.pc = some op) (hne : op ≠ prefixByte) :
    fetch s = dispatchKey (plainKey op) s.pc (s.advancePc 1) := by
  simp only [fetch, hop, if_neg hne]

/-- 0xCB and a second byte go to the lookup with `pc` two further (R100). -/
theorem fetch_prefixed {s : State} {second : Byte} (hop : s.readByte s.pc = some prefixByte)
    (hsecond : s.readByte (s.pc + 1) = some second) :
    fetch s = dispatchKey (prefixedKey second) s.pc (s.advancePc 2) := by
  simp only [fetch, hop, hsecond, if_true]

/-- R243 for a plain opcode, whatever the reason its row is missing. -/
theorem step_plain_miss {s : State} {op : Byte} (hrun : s.Running) (hop : s.readByte s.pc = some op)
    (hne : op ≠ prefixByte) (hmiss : lookup s.config (plainKey op) = none) :
    step s = .next { s with
      pc := s.pc + 1, engine := .haltedOnError (.decodeError (BitVec.setWidth 16 op) s.pc) } := by
  rw [← plainKey_eq_setWidth]
  exact step_of_fetch_raised hrun ((fetch_plain hop hne).trans (dispatchKey_miss (s := s.advancePc 1) hmiss s.pc))

/-- R243 for a prefixed opcode, whatever the reason its row is missing. -/
theorem step_prefixed_miss {s : State} {second : Byte} (hrun : s.Running) (hop : s.readByte s.pc = some prefixByte)
    (hsecond : s.readByte (s.pc + 1) = some second) (hmiss : lookup s.config (prefixedKey second) = none) :
    step s = .next { s with
      pc := s.pc + 2, engine := .haltedOnError (.decodeError (0xCB00 ||| BitVec.setWidth 16 second) s.pc) } := by
  rw [← prefixedKey_eq_or]
  exact step_of_fetch_raised hrun
    ((fetch_prefixed hop hsecond).trans (dispatchKey_miss (s := s.advancePc 2) hmiss s.pc))

/-- 0xCB opens a family of keys of its own and is not one of the 55 absent opcodes (R108). -/
theorem ne_prefixByte_of_mem_absentPlain {op : Byte} (h : op.toNat ∈ absentPlain) : op ≠ prefixByte := by
  rintro rfl
  exact absurd h (by decide)

/-- Settles O4: the table has no row exactly at the absent keys; there the lookup misses whatever the parameters, and
elsewhere it finds the row when the decided rows are present. -/
theorem absentKeysRaiseDecodeError : Obligations.AbsentKeysRaiseDecodeError := by
  refine ⟨fun s op hrun hop habs => ?_, fun s second hrun hop hsecond habs => ?_, fun cfg op hc hne habs => ?_,
    fun cfg second hc habs => ?_⟩
  · have hrow : dispatchTable (plainKey op) = none := by
      rw [dispatchTable_plainKey, plainRow_eq_none_iff]
      exact .inr habs
    exact step_plain_miss hrun hop (ne_prefixByte_of_mem_absentPlain habs) (lookup_eq_none_of_dispatchTable hrow _)
  · have hrow : dispatchTable (prefixedKey second) = none := by
      rw [dispatchTable_prefixedKey, prefixedRow_eq_none_iff]
      exact habs
    exact step_prefixed_miss hrun hop hsecond (lookup_eq_none_of_dispatchTable hrow _)
  · rw [← plainKey_eq_setWidth]
    refine lookup_isSome_of_dispatchTable hc ?_
    rw [dispatchTable_plainKey, ne_eq, plainRow_eq_none_iff]
    exact not_or.2 ⟨hne, habs⟩
  · rw [← prefixedKey_eq_or]
    refine lookup_isSome_of_dispatchTable hc ?_
    rw [dispatchTable_prefixedKey, ne_eq, prefixedRow_eq_none_iff]
    exact habs

end Sys2Proof.Proofs
end

section
/-! A running step that finds the opcode of an instruction and not all of its operand bytes (R242, R250). -/

namespace Sys2Proof.Proofs

open Sys2Proof Sys2Proof.Machine
open Sys2Proof.Laws

/-- The machine that has an instruction finds the table's row of it (R103, U9). -/
theorem lookup_of_wellFormed {cfg : Config} {i : Instr} {row : Row} (hwf : i.wellFormed cfg = true)
    (hrow : dispatchTable i.key = some row) (hdec : row.decided = i.decided) : lookup cfg i.key = some row := by
  have habsent : (row.decided && !cfg.decidedRowsPresent) = !i.wellFormed cfg := by
    rw [hdec, Instr.wellFormed, Bool.not_or, Bool.not_not]
  simp [lookup, hrow, habsent, hwf]

/-- 0xCB is no opcode of its own (R92). -/
theorem ne_prefixByte_of_plainRow {op : Byte} {row : Row} (h : plainRow op = some row) : op ≠ prefixByte := by
  rintro rfl
  rw [(plainRow_eq_none_iff prefixByte).2 (.inl rfl)] at h
  cases h

/-- The opcode bytes of an instruction with a row lead the decoder to its key (R91, R92). -/
theorem decode_opcodeBytes {i : Instr} {row : Row} (hrow : dispatchTable i.key = some row) (cfg : Config)
    (operands : List Byte) : decode cfg (i.opcodeBytes ++ operands) = decodeKey cfg i.key operands := by
  have hkey : i.key = wordOf (hiByte i.key) (loByte i.key) := (wordOf_hiByte_loByte i.key).symm
  unfold dispatchTable at hrow
  split at hrow
  · next hprefixed =>
    rw [hprefixed] at hkey
    rw [opcodeBytes_prefixed hkey, hkey]
    simp [decode, prefixedKey]
  · split at hrow
    · next hplain =>
      rw [hplain] at hkey
      rw [opcodeBytes_plain hkey, hkey]
      simp [decode, plainKey, ne_prefixByte_of_plainRow hrow]
    · cases hrow

/-- A row that consumes exactly `operands` makes nothing of fewer bytes (R90). -/
theorem apply_take_eq_none {row : Row} {i : Instr} {operands : List Byte} (happly : row.apply operands = some (i, []))
    {k : Nat} (hk : k < operands.length) : row.apply (operands.take k) = none := by
  cases row with
  | noImm j =>
    obtain ⟨-, rfl⟩ := Prod.mk.inj (Option.some.inj happly)
    cases hk
  | imm8 make =>
    match operands, happly with
    | [v], _ =>
      obtain rfl : k = 0 := Nat.lt_one_iff.1 hk
      rfl
  | imm16 make =>
    match operands, happly with
    | [lo, hi], _ =>
      obtain rfl | rfl : k = 0 ∨ k = 1 := Nat.le_one_iff_eq_zero_or_eq_one.1 (Nat.lt_succ_iff.1 hk)
      · rfl
      · rfl

/-- The bytes of an instruction without its last operand bytes do not decode (R90, R93). -/
theorem decode_take_encode {i : Instr} (hlookup : Lookup.Statement i) {cfg : Config} (hwf : i.wellFormed cfg = true)
    {k : Nat} (hk : k < i.operandLength) : decode cfg ((encode i).take (i.opcodeLength + k)) = .truncated := by
  obtain ⟨row, hrow, happly, hdec⟩ := hlookup
  have hshort : row.apply (i.operandBytes.take k) = none :=
    apply_take_eq_none (by simpa using happly []) hk
  have htake : (encode i).take (i.opcodeLength + k) = i.opcodeBytes ++ i.operandBytes.take k :=
    List.take_length_add_append k
  rw [htake, decode_opcodeBytes hrow, decodeKey, lookup_of_wellFormed hwf hrow hdec]
  simp only [hshort]

/-- An instruction whose row stands in the table faults at its first operand byte that does not read (R242, R250). -/
theorem missingOperandHalts_of_lookup {i : Instr} (hlookup : Lookup.Statement i) : MissingOperandHalts i := by
  intro s k hrun hwf hk hwindow
  have hlength : s.window.length = i.opcodeLength + k := by
    rw [hwindow, List.length_take, encode, List.length_append]
    exact min_eq_left (Nat.add_le_add_left hk.le _)
  have hdecode : decode s.config s.window = .truncated := by
    rw [hwindow]
    exact decode_take_encode hlookup hwf hk
  obtain ⟨m, hfetch⟩ := fetch_of_decode_truncated hdecode
  rw [hlength] at hfetch
  exact ⟨_, step_of_fetch_raised hrun hfetch, rfl⟩

end Sys2Proof.Proofs
end

section
/-! Plain frames of the register operations, composed and moved past the operand bytes. -/

namespace Sys2Proof.Proofs

open Sys2Proof Sys2Proof.Machine

theorem advancePc_zero (s : State) : s.advancePc 0 = s := by
  simp [State.advancePc]

/-- Where `pc` stands plays no part in a read. -/
theorem readByte_advancePc (s : State) (n : Nat) (addr : Word) : (s.advancePc n).readByte addr = s.readByte addr :=
  readByte_congr rfl rfl addr

/-- Moving past the operands stays inside every frame: none covers `pc`. -/
theorem frame_of_advancePc {s t : State} {regs : List Reg8} {stored : List Word} {n : Nat}
    (h : Frame (s.advancePc n) t regs stored) : Frame s t regs stored where
  regs r hr := (h.regs r hr).trans (s.get8_advancePc r n)
  memory addr ha := (h.memory addr ha).trans (readByte_advancePc s n addr)
  engine := h.engine
  config := h.config

/-- An instruction that moves past its operands and then works under a plain frame has that frame, with the operands
(R94). -/
theorem plainFrame_of_advancePc {s t : State} {regs : List Reg8} {stored : List Word} {n : Nat}
    (h : PlainFrame (s.advancePc n) t regs stored 0) : PlainFrame s t regs stored n where
  toFrame := frame_of_advancePc h.toFrame
  flags := h.flags
  sp := h.sp
  pc := by simp [h.pc]

/-- Two operations under plain frames, one after the other. -/
theorem plainFrame_trans {s t u : State} {regs regs' : List Reg8} {stored stored' : List Word}
    (h : PlainFrame s t regs stored 0) (h' : PlainFrame t u regs' stored' 0) :
    PlainFrame s u (regs ++ regs') (stored ++ stored') 0 where
  toFrame := h.toFrame.trans h'.toFrame
  flags := h'.flags.trans h.flags
  sp := h'.sp.trans h.sp
  pc := by simp [h'.pc, h.pc]

/-- A write of one register has a plain frame: that register. -/
theorem plainFrame_set8 (s : State) (r : Reg8) (v : Byte) : PlainFrame s (s.set8 r v) [r] [] 0 where
  toFrame := frame_set8 s r v
  flags := s.set8_f r v
  sp := s.set8_sp r v
  pc := by simp

/-- A write of a 16-bit operand other than SP leaves SP alone (R97). -/
theorem setWide_sp_of_ne_sp (s : State) {w : Wide} (hw : w ≠ .sp) (v : Word) : (s.setWide w v).sp = s.sp := by
  cases w with
  | sp => exact absurd rfl hw
  | bc | de | hl => rfl

end Sys2Proof.Proofs
end

section
/-! The loads and stores (40_loads.md): one rule per shared operation, then the statements. -/

namespace Sys2Proof.Proofs

open Sys2Proof Sys2Proof.Machine
open Sys2Proof.Laws

/-! ### One byte loaded, one byte stored -/

/-- An instruction that moves past its operands and runs `loadFrom` loads the byte, or faults at it. -/
theorem loadsByte_of_exec {i : Instr} {r : Reg8} {addr : State → Word} {n : Nat}
    (hexec : ∀ s, exec i s = .next (loadFrom r (addr s) (s.advancePc n))) : LoadsByte i r addr n := by
  intro s
  constructor
  · intro v hv
    have hload : loadFrom r (addr s) (s.advancePc n) = (s.advancePc n).set8 r v :=
      readByteThen_some ((readByte_advancePc s n _).trans hv) _
    exact ⟨_, (hexec s).trans (congrArg _ hload), State.get8_set8_same _ r v,
      plainFrame_of_advancePc (plainFrame_set8 _ r v)⟩
  · intro hnone
    have hload : loadFrom r (addr s) (s.advancePc n) = (s.advancePc n).raise (.unmappedAddressError (addr s)) :=
      readByteThen_none ((readByte_advancePc s n _).trans hnone) _
    exact (hexec s).trans (congrArg _ hload)

/-- An instruction that moves past its operands and runs `storeAt` stores the byte, or faults at it. -/
theorem storesByte_of_exec {i : Instr} {addr : State → Word} {v : State → Byte} {n : Nat}
    (hexec : ∀ s, exec i s = .next (storeAt (addr s) (v s) (s.advancePc n))) : StoresByte i addr v n := by
  intro s hinv
  obtain ⟨hstored, hfault⟩ :=
    byteWritesStoreInVramAndIoOnly (s.advancePc n) (addr s) (v s) (fun t => t) (hinv.advancePc n)
  constructor
  · intro hs
    obtain ⟨t, -, hstore, hread, hframe⟩ := hstored hs
    exact ⟨t, (hexec s).trans (congrArg _ hstore), hread, plainFrame_of_advancePc hframe⟩
  · intro hs
    exact (hexec s).trans (congrArg _ (hfault hs))

/-- `loadsByte_of_exec` for an instruction without operand bytes. -/
theorem loadsByte_of_exec_noOperands {i : Instr} {r : Reg8} {addr : State → Word}
    (hexec : ∀ s, exec i s = .next (loadFrom r (addr s) s)) : LoadsByte i r addr 0 :=
  loadsByte_of_exec fun s => by rw [hexec, advancePc_zero]

/-- `storesByte_of_exec` for an instruction without operand bytes. -/
theorem storesByte_of_exec_noOperands {i : Instr} {addr : State → Word} {v : State → Byte}
    (hexec : ∀ s, exec i s = .next (storeAt (addr s) (v s) s)) : StoresByte i addr v 0 :=
  storesByte_of_exec fun s => by rw [hexec, advancePc_zero]

/-! ### A transfer through HL that moves HL -/

/-- HL moves, and only its two registers change (R129 to R132). -/
theorem plainFrame_stepHl (s : State) (move : Word → Word) : PlainFrame s (s.stepHl move) [.h, .l] [] 0 :=
  plainFrame_setPair s (by decide) _

theorem hlAddress_stepHl (s : State) (move : Word → Word) : hlAddress (s.stepHl move) = move (hlAddress s) :=
  hlAddress_setPair s _

/-- A plain frame that leaves H and L out keeps HL. -/
theorem hlAddress_eq_of_plainFrame {s t : State} {regs : List Reg8} {stored : List Word} {n : Nat}
    (h : PlainFrame s t regs stored n) (hh : .h ∉ regs) (hl : .l ∉ regs) : hlAddress t = hlAddress s :=
  congrArg₂ wordOf (h.regs .h hh) (h.regs .l hl)

/-- Where HL reads, A is loaded from the old HL before HL moves (R129, R131). -/
theorem loadAuto_of_readByte {s : State} {v : Byte} (hv : s.readByte (hlAddress s) = some v) (move : Word → Word) :
    ∃ t, loadAuto move s = t ∧ t.a = v ∧ hlAddress t = move (hlAddress s) ∧ PlainFrame s t [.a, .h, .l] [] 0 := by
  have hload : PlainFrame s (s.set8 .a v) [.a] [] 0 := plainFrame_set8 s .a v
  exact ⟨(s.set8 .a v).stepHl move, readByteThen_some hv _, rfl, hlAddress_stepHl _ move,
    plainFrame_trans hload (plainFrame_stepHl _ move)⟩

/-- Where HL does not read, neither A nor HL changes (R129, R131). -/
theorem loadAuto_of_unmapped {s : State} (hnone : s.readByte (hlAddress s) = none) (move : Word → Word) :
    loadAuto move s = s.raise (.unmappedAddressError (hlAddress s)) :=
  readByteThen_none hnone _

/-- Where HL takes a store, A is stored at the old HL before HL moves (R130, R132). -/
theorem storeAuto_of_storable {s : State} (hinv : s.Inv) (hs : Storable (hlAddress s)) (move : Word → Word) :
    ∃ t, storeAuto move s = t ∧ t.readByte (hlAddress s) = some s.a ∧ hlAddress t = move (hlAddress s) ∧
      PlainFrame s t [.h, .l] [hlAddress s] 0 := by
  obtain ⟨u, -, hstore, hread, hframe⟩ :=
    (byteWritesStoreInVramAndIoOnly s (hlAddress s) s.a (fun t => t.stepHl move) hinv).1 hs
  have hmove : PlainFrame u (u.stepHl move) [.h, .l] [] 0 := plainFrame_stepHl u move
  have hl : hlAddress u = hlAddress s := hlAddress_eq_of_plainFrame hframe (by simp) (by simp)
  exact ⟨u.stepHl move, hstore, (hmove.memory _ (by simp)).trans hread,
    (hlAddress_stepHl u move).trans (congrArg move hl), plainFrame_trans hframe hmove⟩

/-- Where HL takes no store, HL is unchanged (R130, R132). -/
theorem storeAuto_of_not_storable {s : State} (hs : ¬ Storable (hlAddress s)) (move : Word → Word) :
    storeAuto move s = s.raise (.unmappedAddressError (hlAddress s)) :=
  writeByteThen_none (writeByte_of_not_storable hs _) _

/-- The fault of an instruction without operand bytes is its state raised. -/
theorem halts_of_raise {i : Instr} {s : State} {r : Fault} (hexec : exec i s = .next (s.raise r)) : Halts i s 0 r := by
  rw [Halts, hexec]
  simp [State.raise]

/-! ### The I/O-mapped addresses -/

/-- The I/O-mapped address is the plain sum: it does not wrap (R62). -/
theorem toNat_ofNat_ioAddress (n : Byte) : (BitVec.ofNat 16 (0xFF00 + n.toNat)).toNat = 0xFF00 + n.toNat := by
  have hn : n.toNat < 256 := n.isLt
  rw [BitVec.toNat_ofNat]
  omega

theorem ioAddress_eq (n : Byte) : ioAddress n = BitVec.ofNat 16 (0xFF00 + n.toNat) := by
  apply BitVec.eq_of_toNat_eq
  rw [toNat_ofNat_ioAddress, ioAddress]
  bv_omega

/-- The I/O-mapped addresses that take a store are the bytes of the IO region (R51, R135, R137). -/
theorem not_storable_ioAddress_iff (n : Byte) : ¬ Storable (BitVec.ofNat 16 (0xFF00 + n.toNat)) ↔ 0x80 ≤ n.toNat := by
  rw [Storable, toNat_ofNat_ioAddress]
  omega

/-- The I/O-mapped addresses that read are the same ones (R51, R136, R138). -/
theorem readByte_ioAddress_eq_none_iff {s : State} (hc : s.config.wf = true) (n : Byte) :
    s.readByte (BitVec.ofNat 16 (0xFF00 + n.toNat)) = none ↔ 0x80 ≤ n.toNat := by
  rw [readByte_eq_none_iff, not_readable_iff hc, toNat_ofNat_ioAddress]
  simp only [Config.wf, Bool.and_eq_true, decide_eq_true_eq] at hc
  omega

/-! ### The rows with an immediate -/

theorem lookup_ldImm8 (r : Reg8) (v : Byte) : Lookup.Statement (Instr.ldImm8 (.reg r) v) := by
  cases r with
  | b => exact Lookup.ldBD8 v
  | c => exact Lookup.ldCD8 v
  | d => exact Lookup.ldDD8 v
  | e => exact Lookup.ldED8 v
  | h => exact Lookup.ldHD8 v
  | l => exact Lookup.ldLD8 v
  | a => exact Lookup.ldAD8 v

theorem lookup_ldWide (w : Wide) (v : Word) : Lookup.Statement (Instr.ldWide w v) := by
  cases w with
  | bc => exact Lookup.ldBcD16 v
  | de => exact Lookup.ldDeD16 v
  | hl => exact Lookup.ldHlD16 v
  | sp => exact Lookup.ldSpD16 v

/-! ### The encodings of the families -/

theorem encode_ldReg (r r' : Reg8) :
    encode (Instr.ldReg r r') = [BitVec.ofNat 8 (0x40 + 8 * regCode r + regCode r')] := by
  cases r <;> cases r' <;> rfl

theorem encode_ldFromHl (r : Reg8) : encode (Instr.ldFromHl r) = [BitVec.ofNat 8 (0x46 + 8 * regCode r)] := by
  cases r <;> rfl

theorem encode_ldToHl (r : Reg8) : encode (Instr.ldToHl r) = [BitVec.ofNat 8 (0x70 + regCode r)] := by
  cases r <;> rfl

theorem encode_ldImm8 (r : Reg8) (v : Byte) :
    encode (Instr.ldImm8 (.reg r) v) = [BitVec.ofNat 8 (0x06 + 8 * regCode r), v] := by
  cases r <;> exact encode_plain rfl

theorem encode_ldWide (w : Wide) (v : Word) :
    encode (Instr.ldWide w v) = [BitVec.ofNat 8 (0x01 + 16 * wideCode w), v.extractLsb' 0 8, v.extractLsb' 8 8] := by
  cases w <;> exact encode_plain rfl

/-! ### The statements -/

/-- Settles O24: `LD r,(HL)` is one byte loaded from HL. -/
theorem loadRegisterFromHl : Obligations.LoadRegisterFromHl := by
  intro r
  exact ⟨encode_ldFromHl r, loadsByte_of_exec_noOperands (exec_ldFromHl · r)⟩

/-- Settles O25: `LD r,d8` is one register written past the operand. -/
theorem loadRegisterImmediate : Obligations.LoadRegisterImmediate := by
  intro r v
  refine ⟨encode_ldImm8 r v, fun s => ?_, missingOperandHalts_of_lookup (lookup_ldImm8 r v)⟩
  exact ⟨_, exec_ldImm8 s r v, State.get8_set8_same _ r v, plainFrame_of_advancePc (plainFrame_set8 _ r v)⟩

/-- Settles O26: `LD (HL),d8` is one byte stored at HL past the operand. -/
theorem storeImmediateAtHl : Obligations.StoreImmediateAtHl := by
  intro v
  exact ⟨encode_plain rfl, storesByte_of_exec fun _ => rfl, missingOperandHalts_of_lookup (Lookup.ldIndHlD8 v)⟩

/-- Settles O27: `LD rr,d16` is one 16-bit operand written past the immediate word; the value plays no part. -/
theorem loadWideImmediate : Obligations.LoadWideImmediate := by
  intro w v
  refine ⟨encode_ldWide w v, fun s => ?_, missingOperandHalts_of_lookup (lookup_ldWide w v)⟩
  exact ⟨_, exec_ldWide s w v, State.getWide_setWide _ w v, State.setWide_f _ w v,
    fun hw => setWide_sp_of_ne_sp (s.advancePc 2) hw v, State.setWide_pc _ w v, frame_of_advancePc (frame_setWide _ w v)⟩

/-- Settles O29: `LD (BC),A` and `LD (DE),A` are one byte stored at the pair. -/
theorem storeAThroughPair : Obligations.StoreAThroughPair :=
  ⟨rfl, storesByte_of_exec_noOperands fun _ => rfl, rfl, storesByte_of_exec_noOperands fun _ => rfl⟩

/-- Settles O30: `LD (HL),r` is one byte stored at HL; the value is read before the store, so H and L may be `r`. -/
theorem storeRegisterAtHl : Obligations.StoreRegisterAtHl := by
  intro r
  exact ⟨encode_ldToHl r, storesByte_of_exec_noOperands (exec_ldToHl · r)⟩

/-- Settles O31: both forms are `loadAuto`, with HL moved by 1 or by 65535 modulo 65536. -/
theorem loadAAndMoveHl : Obligations.LoadAAndMoveHl := by
  refine ⟨rfl, rfl, fun s => ⟨fun v hv => ⟨?_, ?_⟩, fun hnone => ⟨?_, ?_⟩⟩⟩
  · obtain ⟨t, hexec, ha, hhl, hframe⟩ := loadAuto_of_readByte hv (fun w => w + 1)
    exact ⟨t, congrArg _ hexec, ha, by rw [hhl, BitVec.toNat_add]; rfl, hframe⟩
  · obtain ⟨t, hexec, ha, hhl, hframe⟩ := loadAuto_of_readByte hv (fun w => w - 1)
    exact ⟨t, congrArg _ hexec, ha, by rw [hhl]; bv_omega, hframe⟩
  · exact halts_of_raise (congrArg _ (loadAuto_of_unmapped hnone _))
  · exact halts_of_raise (congrArg _ (loadAuto_of_unmapped hnone _))

/-- Settles O32: both forms are `storeAuto`; a storable HL is neither 0 nor 0xFFFF, so HL does not wrap. -/
theorem storeAAndMoveHl : Obligations.StoreAAndMoveHl := by
  refine ⟨rfl, rfl, fun s hinv => ⟨fun hs => ⟨?_, ?_⟩, fun hs => ⟨?_, ?_⟩⟩⟩
  · obtain ⟨t, hexec, hread, hhl, hframe⟩ := storeAuto_of_storable hinv hs (fun w => w + 1)
    exact ⟨t, congrArg _ hexec, hread, by rw [hhl]; unfold Storable at hs; bv_omega, hframe⟩
  · obtain ⟨t, hexec, hread, hhl, hframe⟩ := storeAuto_of_storable hinv hs (fun w => w - 1)
    exact ⟨t, congrArg _ hexec, hread, by rw [hhl]; unfold Storable at hs; bv_omega, hframe⟩
  · exact halts_of_raise (congrArg _ (storeAuto_of_not_storable hs _))
  · exact halts_of_raise (congrArg _ (storeAuto_of_not_storable hs _))

/-- Settles O33: one byte loaded and one stored at the immediate word, past it. -/
theorem loadAndStoreAAbsolute : Obligations.LoadAndStoreAAbsolute := by
  intro a16
  exact ⟨encode_plain rfl, loadsByte_of_exec fun _ => rfl, missingOperandHalts_of_lookup (Lookup.ldAIndA16 a16),
    encode_plain rfl, storesByte_of_exec fun _ => rfl, missingOperandHalts_of_lookup (Lookup.ldIndA16A a16)⟩

/-- Settles O34: one byte loaded and one stored at the I/O-mapped address, which is a byte of IO exactly below 0x80. -/
theorem loadAndStoreAInIo : Obligations.LoadAndStoreAInIo := by
  refine ⟨fun n => ⟨encode_plain rfl, ?_, missingOperandHalts_of_lookup (Lookup.ldhAIndA8 n), encode_plain rfl, ?_,
    missingOperandHalts_of_lookup (Lookup.ldhIndA8A n)⟩, rfl, ?_, rfl, ?_, fun s n hc =>
    ⟨readByte_ioAddress_eq_none_iff hc n, not_storable_ioAddress_iff n⟩⟩
  · exact loadsByte_of_exec fun s => by rw [← ioAddress_eq]; rfl
  · exact storesByte_of_exec fun s => by rw [← ioAddress_eq]; rfl
  · exact loadsByte_of_exec_noOperands fun s => by rw [← ioAddress_eq]; rfl
  · exact storesByte_of_exec_noOperands fun s => by rw [← ioAddress_eq]; rfl

/-- Settles O23: `LD r,r'` is one register written; the copied value is read before. -/
theorem loadRegisterFromRegister : Obligations.LoadRegisterFromRegister := by
  intro r r'
  exact ⟨encode_ldReg r r', fun s => ⟨_, exec_ldReg s r r', s.get8_set8_same r _, plainFrame_set8 s r _⟩⟩

/-- Settles O28: `LD A,(BC)` and `LD A,(DE)` are one byte loaded from the pair. -/
theorem loadAThroughPair : Obligations.LoadAThroughPair :=
  ⟨rfl, loadsByte_of_exec_noOperands fun _ => rfl, rfl, loadsByte_of_exec_noOperands fun _ => rfl⟩

end Sys2Proof.Proofs
end

section
/-! INC, DEC and CP (41_arith8.md): one rule per shared operation, then the statements. -/

namespace Sys2Proof.Proofs

open Sys2Proof Sys2Proof.Machine
open Sys2Proof.Laws

/-! ### The flag writes leave everything but F -/

theorem frame_writeZNH (s : State) (z n h : Bool) : Frame s (s.writeZNH z n h) [] [] :=
  .of_fields (fun r _ => s.get8_writeZNH r z n h) rfl rfl rfl _

theorem frame_writeZNHC (s : State) (z n h c : Bool) : Frame s (s.writeZNHC z n h c) [] [] :=
  .of_fields (fun r _ => s.get8_writeZNHC r z n h c) rfl rfl rfl _

/-- What an operand names does not depend on F (R10). -/
theorem operandValue_writeZNH (s : State) (o : Operand8) (z n h : Bool) :
    operandValue (s.writeZNH z n h) o = operandValue s o := by
  cases o with
  | reg r => exact congrArg some (s.get8_writeZNH r z n h)
  | indHl => exact readByte_congr rfl rfl _

/-! ### One operand modified, Carry kept -/

/-- An instruction that makes `res v` of its operand and then writes Z from that result, N and H meets `ModifiesOperand`
with Carry as before; `resNat`, `subtract` and `halfProp` say the result, N and Half-Carry as the statements write them. -/
theorem modifiesOperand_of_exec {i : Instr} {o : Operand8} {res : Byte → Byte} {n : Bool} {half : Byte → Bool}
    {resNat : Byte → Nat} {subtract : Prop} {halfProp : Byte → Prop}
    (hexec : ∀ s, exec i s =
      .next (modifyOperand res (fun v t => t.writeZNH (zeroOf (res v)) n (half v)) o s))
    (hres : ∀ v, (res v).toNat = resNat v) (hn : n = true ↔ subtract) (hhalf : ∀ v, half v = true ↔ halfProp v) :
    ModifiesOperand i o (fun _ v => resNat v) subtract (fun _ v => halfProp v) (fun s _ => CarrySet s) := by
  intro s hinv
  obtain ⟨hwritten, hfault⟩ :=
    modifyOperand_spec hinv o res (fun v t => t.writeZNH (zeroOf (res v)) n (half v))
  constructor
  · intro v hv hs
    obtain ⟨t, hmodify, hvalue, hf, hsp, hpc, hframe⟩ := hwritten v hv hs
    have hzero : zeroOf (res v) = true ↔ resNat v = 0 := by rw [zeroOf_iff, hres]
    have hflags := (flagsAre_writeZNH hf (zeroOf (res v)) n (half v)).congr hzero hn (hhalf v) .rfl
    exact ⟨_, res v, (hexec s).trans (congrArg _ hmodify), (operandValue_writeZNH t o _ _ _).trans hvalue, hres v,
      hflags, hsp, hpc, by simpa using hframe.trans (frame_writeZNH t _ _ _)⟩
  · intro hs
    exact halts_of_raise ((hexec s).trans (congrArg _ (hfault hs)))

/-! ### A comparison with A -/

/-- An instruction that moves past its operands and compares `v` with A writes the flags of `A - v` and nothing else
(R154). -/
theorem writesFlagsOnly_of_compareA {i : Instr} {s : State} {v : Byte} {n : Nat}
    (hexec : exec i s = .next (compareA v (s.advancePc n))) :
    WritesFlagsOnly i s n (v = s.a) True (v.toNat % 16 > s.a.toNat % 16) (v.toNat > s.a.toNat) := by
  have hflags := (flagsAre_writeZNHC (s.advancePc_f n) (decide (v = s.a)) true (halfOfSub s.a v) (carryOfSub s.a v)).congr
    decide_eq_true_iff (iff_of_true rfl trivial) (halfOfSub_iff s.a v) decide_eq_true_iff
  exact ⟨_, hexec, hflags, rfl, rfl, frame_of_advancePc (frame_writeZNHC _ _ _ _ _)⟩

/-! ### The encodings of the families -/

theorem encode_inc (o : Operand8) : encode (Instr.inc o) = [BitVec.ofNat 8 (0x04 + 8 * operandCode o)] := by
  cases o with
  | reg r => cases r <;> rfl
  | indHl => rfl

theorem encode_dec (o : Operand8) : encode (Instr.dec o) = [BitVec.ofNat 8 (0x05 + 8 * operandCode o)] := by
  cases o with
  | reg r => cases r <;> rfl
  | indHl => rfl

theorem encode_cp (o : Operand8) : encode (Instr.cp o) = [BitVec.ofNat 8 (0xB8 + operandCode o)] := by
  cases o with
  | reg r => cases r <;> rfl
  | indHl => rfl

/-! ### The statements -/

/-- Settles O35: INC is one operand modified by `v + 1`, with Half-Carry from the result. -/
theorem incrementOperand : Obligations.IncrementOperand := by
  intro o
  have hres (v : Byte) : (v + 1).toNat = (v.toNat + 1) % 256 := BitVec.toNat_add v 1
  have hn : false = true ↔ False := iff_of_false Bool.false_ne_true not_false
  exact ⟨encode_inc o, modifiesOperand_of_exec (exec_inc · o) hres hn halfOfInc_iff⟩

/-- Settles O36: DEC is one operand modified by `v - 1`, with Half-Carry from the operand before. -/
theorem decrementOperand : Obligations.DecrementOperand := by
  intro o
  have hres (v : Byte) : (v - 1).toNat = (v.toNat + 255) % 256 := by bv_omega
  have hn : true = true ↔ True := iff_of_true rfl trivial
  exact ⟨encode_dec o, modifiesOperand_of_exec (exec_dec · o) hres hn halfOfDec_iff⟩

/-- Settles O38: where the operand reads, CP is one comparison with A; the immediate form compares past its operand. -/
theorem compareWithA : Obligations.CompareWithA := by
  refine ⟨fun o => ⟨encode_cp o, fun s => ⟨fun v hv => ?_, fun hnone => ?_⟩⟩, fun v =>
    ⟨encode_plain rfl, missingOperandHalts_of_lookup (Lookup.cpD8 v), fun s => writesFlagsOnly_of_compareA rfl⟩⟩
  · have hexec : exec (Instr.cp o) s = .next (compareA v s) :=
      (exec_cp s o).trans (congrArg _ (readOperandThen_some hv _))
    exact writesFlagsOnly_of_compareA (by rw [hexec, advancePc_zero])
  · exact halts_of_raise ((exec_cp s o).trans (congrArg _ (readOperandThen_none hnone _)))

end Sys2Proof.Proofs
end

section
/-! INC and DEC of a 16-bit operand (42_arith16.md): both write the operand and nothing else. -/

namespace Sys2Proof.Proofs

open Sys2Proof Sys2Proof.Machine

/-- An instruction that writes a 16-bit operand, and does no more, makes it that number and leaves F, `pc` and all else
alone (R97). -/
theorem writesWide_of_exec {i : Instr} {s : State} {w : Wide} {v : Word} {res : Nat}
    (hexec : exec i s = .next (s.setWide w v)) (hres : v.toNat = res) :
    ∃ t, exec i s = .next t ∧ (t.getWide w).toNat = res ∧ t.f = s.f ∧ (w ≠ .sp → t.sp = s.sp) ∧ t.pc = s.pc ∧
      Frame s t (wideRegs w) [] := by
  have hread : ((s.setWide w v).getWide w).toNat = res := (congrArg _ (State.getWide_setWide s w v)).trans hres
  exact ⟨_, hexec, hread, s.setWide_f w v, fun hw => setWide_sp_of_ne_sp s hw v, s.setWide_pc w v, frame_setWide s w v⟩

theorem encode_incWide (w : Wide) : encode (Instr.incWide w) = [BitVec.ofNat 8 (0x03 + 16 * wideCode w)] := by
  cases w <;> rfl

theorem encode_decWide (w : Wide) : encode (Instr.decWide w) = [BitVec.ofNat 8 (0x0B + 16 * wideCode w)] := by
  cases w <;> rfl

/-- Settles O41: each is one 16-bit operand written, with its value plus or minus one modulo 65536. -/
theorem incrementAndDecrementWide : Obligations.IncrementAndDecrementWide := by
  intro w
  have hinc (v : Word) : (v + 1).toNat = (v.toNat + 1) % 65536 := BitVec.toNat_add v 1
  have hdec (v : Word) : (v - 1).toNat = (v.toNat + 65535) % 65536 := by bv_omega
  exact ⟨encode_incWide w, encode_decWide w, fun s =>
    ⟨writesWide_of_exec (exec_incWide s w) (hinc _), writesWide_of_exec (exec_decWide s w) (hdec _)⟩⟩

end Sys2Proof.Proofs
end

section
/-! The logic into A (43_logic.md): one rule for a write of A and the four flags, one for `logicA`, then the statements. -/

namespace Sys2Proof.Proofs

open Sys2Proof Sys2Proof.Machine
open Sys2Proof.Laws

/-- An instruction that moves past its operands, writes A and then the four flags, and does no more, meets `WritesA`; `res`
and the four propositions say the result and the flags as the statements write them (R25, R94). -/
theorem writesA_of_exec {i : Instr} {s : State} {operands res : Nat} {v : Byte} {z n h c : Bool}
    {zero subtract half carry : Prop}
    (hexec : exec i s = .next (((s.advancePc operands).set8 .a v).writeZNHC z n h c)) (hres : v.toNat = res)
    (hz : z = true ↔ zero) (hn : n = true ↔ subtract) (hh : h = true ↔ half) (hc : c = true ↔ carry) :
    WritesA i s operands res zero subtract half carry := by
  have hf : ((s.advancePc operands).set8 .a v).f = s.f := State.set8_f _ .a v
  have hframe : Frame (s.advancePc operands) (((s.advancePc operands).set8 .a v).writeZNHC z n h c) [.a] [] :=
    (frame_set8 _ .a v).trans (frame_writeZNHC _ z n h c)
  exact ⟨_, hexec, hres, (flagsAre_writeZNHC hf z n h c).congr hz hn hh hc, rfl, rfl, frame_of_advancePc hframe⟩

/-- `logicA` past the operands makes A the given byte, takes Z from it and clears N and Carry (R175, R178, R181). -/
theorem writesA_of_logicA {i : Instr} {s : State} {operands res : Nat} {v : Byte} {h : Bool} {half : Prop}
    (hexec : exec i s = .next (logicA v h (s.advancePc operands))) (hres : v.toNat = res) (hh : h = true ↔ half) :
    WritesA i s operands res (res = 0) False half False := by
  have hzero : zeroOf v = true ↔ res = 0 := by rw [zeroOf_iff, hres]
  have hclear : false = true ↔ False := iff_of_false Bool.false_ne_true not_false
  exact writesA_of_exec hexec hres hzero hclear hh hclear

/-- An instruction that moves past its operands and runs `xorA` makes A its exclusive or with `v` and clears N, Half-Carry
and Carry (R175). -/
theorem writesA_of_xorA {i : Instr} {s : State} {operands : Nat} {v : Byte}
    (hexec : exec i s = .next (xorA v (s.advancePc operands))) :
    WritesA i s operands (s.a.toNat ^^^ v.toNat) (s.a.toNat ^^^ v.toNat = 0) False False False :=
  writesA_of_logicA hexec (BitVec.toNat_xor s.a v) (iff_of_false Bool.false_ne_true not_false)

theorem encode_xor8 (o : Operand8) : encode (Instr.xor8 o) = [BitVec.ofNat 8 (0xA8 + operandCode o)] := by
  cases o with
  | reg r => cases r <;> rfl
  | indHl => rfl

/-- Settles O42: where the operand reads, XOR is one `xorA`; the immediate form runs it past its operand. -/
theorem exclusiveOrIntoA : Obligations.ExclusiveOrIntoA := by
  refine ⟨fun o => ⟨encode_xor8 o, fun s => ⟨fun v hv => ?_, fun hnone => ?_⟩⟩, fun v =>
    ⟨encode_plain rfl, missingOperandHalts_of_lookup (Lookup.xorD8 v), fun s => writesA_of_xorA rfl⟩⟩
  · have hexec : exec (Instr.xor8 o) s = .next (xorA v s) :=
      (exec_xor8 s o).trans (congrArg _ (readOperandThen_some hv _))
    exact writesA_of_xorA (by rw [hexec, advancePc_zero])
  · exact halts_of_raise ((exec_xor8 s o).trans (congrArg _ (readOperandThen_none hnone _)))

end Sys2Proof.Proofs
end

section
/-! The single-bit test (44_bit.md): one rule for a write of Z, N and Half-Carry alone, then the statement. -/

namespace Sys2Proof.Proofs

open Sys2Proof Sys2Proof.Machine
open Sys2Proof.Laws

/-- An instruction without operand bytes that writes Z, N and Half-Carry, and does no more, meets `WritesFlagsOnly` with
Carry as before (R25). -/
theorem writesFlagsOnly_of_writeZNH {i : Instr} {s : State} {z n h : Bool} {zero subtract half : Prop}
    (hexec : exec i s = .next (s.writeZNH z n h)) (hz : z = true ↔ zero) (hn : n = true ↔ subtract)
    (hh : h = true ↔ half) : WritesFlagsOnly i s 0 zero subtract half (CarrySet s) := by
  have hflags := (flagsAre_writeZNH (Eq.refl s.f) z n h).congr hz hn hh .rfl
  have hpc : (s.writeZNH z n h).pc = s.pc + BitVec.ofNat 16 0 := by simp
  exact ⟨_, hexec, hflags, rfl, hpc, frame_writeZNH s z n h⟩

/-- Where the operand reads, BIT is one flag write with Z from the tested bit (R185, R186). -/
theorem exec_bit_of_operandValue {s : State} {o : Operand8} {v : Byte} (hv : operandValue s o = some v) (b : Fin 8) :
    exec (Instr.bit b o) s = .next (s.writeZNH (!v.getLsbD b.val) false true) :=
  (exec_bit s b o).trans (congrArg _ (readOperandThen_some hv _))

/-- Where (HL) is unmapped, BIT faults at HL before any flag write (R186). -/
theorem exec_bit_of_unmapped {s : State} {o : Operand8} (hnone : operandValue s o = none) (b : Fin 8) :
    exec (Instr.bit b o) s = .next (s.raise (.unmappedAddressError (hlAddress s))) :=
  (exec_bit s b o).trans (congrArg _ (readOperandThen_none hnone _))

theorem encode_bit (b : Fin 8) (o : Operand8) :
    encode (Instr.bit b o) = [0xCB, BitVec.ofNat 8 (0x40 + 8 * b.val + operandCode o)] := by
  revert b
  cases o with
  | reg r => cases r <;> decide
  | indHl => decide

/-- Settles O45: where the operand reads, BIT is one write of Z, N and Half-Carry, with Z from the tested bit. -/
theorem testBit : Obligations.TestBit := by
  refine fun b o => ⟨encode_bit b o, fun s => ⟨fun v hv => ?_, fun hnone => ?_⟩⟩
  · have hn : false = true ↔ False := iff_of_false Bool.false_ne_true not_false
    have hh : true = true ↔ True := iff_of_true rfl trivial
    exact writesFlagsOnly_of_writeZNH (exec_bit_of_operandValue hv b) (testedBit_iff b v) hn hh
  · exact halts_of_raise (exec_bit_of_unmapped hnone b)

end Sys2Proof.Proofs
end

section
/-! The jumps (45_jumps.md): a taken and an untaken jump once each, the range check of JR, then the statements. -/

namespace Sys2Proof.Proofs

open Sys2Proof Sys2Proof.Machine
open Sys2Proof.Laws

/-! ### A transfer of `pc` -/

/-- A write of `pc` has the empty frame. -/
theorem frame_setPc (s : State) (target : Word) : Frame s (s.setPc target) [] [] :=
  .of_fields (fun r _ => s.get8_setPc r target) rfl rfl rfl _

/-- Moving past the operands is the plain frame of an instruction that does nothing more (R94). -/
theorem plainFrame_advancePc (s : State) (n : Nat) : PlainFrame s (s.advancePc n) [] [] n where
  toFrame := .of_fields (fun r _ => s.get8_advancePc r n) rfl rfl rfl _
  flags := rfl
  sp := rfl
  pc := rfl

/-- An instruction that moves past its operands and then to `target` makes `pc` that target and changes nothing else
(R190, R192). -/
theorem jumps_of_exec {i : Instr} {s : State} {n : Nat} {target : Word}
    (hexec : exec i s = .next ((s.advancePc n).setPc target)) :
    ∃ t, exec i s = .next t ∧ t.pc = target ∧ t.f = s.f ∧ t.sp = s.sp ∧ Frame s t [] [] :=
  ⟨_, hexec, rfl, rfl, rfl, frame_of_advancePc (frame_setPc _ target)⟩

/-! ### Taken and not taken -/

theorem exec_jr_of_condHolds {s : State} {cc : Option Cond} (h : CondHolds s cc) (e8 : Byte) :
    exec (Instr.jr cc e8) s = .next (relativeJump e8 (s.advancePc 1)) := by
  rw [exec_jr, (taken_iff s cc).2 h]
  rfl

theorem exec_jr_of_not_condHolds {s : State} {cc : Option Cond} (h : ¬ CondHolds s cc) (e8 : Byte) :
    exec (Instr.jr cc e8) s = .next (s.advancePc 1) := by
  rw [exec_jr, (taken_false_iff s cc).2 h]
  rfl

theorem exec_jp_of_condHolds {s : State} {cc : Option Cond} (h : CondHolds s cc) (a16 : Word) :
    exec (Instr.jp cc a16) s = .next ((s.advancePc 2).setPc a16) := by
  rw [exec_jp, (taken_iff s cc).2 h]
  rfl

theorem exec_jp_of_not_condHolds {s : State} {cc : Option Cond} (h : ¬ CondHolds s cc) (a16 : Word) :
    exec (Instr.jp cc a16) s = .next (s.advancePc 2) := by
  rw [exec_jp, (taken_false_iff s cc).2 h]
  rfl

/-! ### The range check -/

theorem jumpTarget_eq (pc : Word) (e8 : Byte) : jumpTarget pc e8 = (pc.toNat : Int) + signedValue e8 := by
  rw [jumpTarget, signedOffset_eq]

/-- A target inside `[0, 0xFFFF]` is kept by its narrowing to 16 bits (R190). -/
theorem toNat_ofInt_of_range {target : Int} (hlow : 0 ≤ target) (hhigh : target ≤ 0xFFFF) :
    ((BitVec.ofInt 16 target).toNat : Int) = target := by
  rw [BitVec.toNat_ofInt]
  omega

/-- Inside the range a relative jump is a write of `pc` (R190). -/
theorem relativeJump_of_range {s : State} {e8 : Byte} (hlow : 0 ≤ (s.pc.toNat : Int) + signedValue e8)
    (hhigh : (s.pc.toNat : Int) + signedValue e8 ≤ 0xFFFF) :
    relativeJump e8 s = s.setPc (BitVec.ofInt 16 ((s.pc.toNat : Int) + signedValue e8)) := by
  rw [relativeJump, jumpTarget_eq, if_neg (not_or.2 ⟨hlow.not_gt, hhigh.not_gt⟩)]

/-- Outside the range a relative jump faults with `pc` and the offset (R190). -/
theorem relativeJump_of_not_range {s : State} {e8 : Byte}
    (hout : (s.pc.toNat : Int) + signedValue e8 < 0 ∨ (s.pc.toNat : Int) + signedValue e8 > 0xFFFF) :
    relativeJump e8 s = s.raise (.invalidJumpError s.pc (signedValue e8)) := by
  rw [relativeJump, jumpTarget_eq, if_pos hout, signedOffset_eq]

/-! ### The rows and the encodings of the families -/

theorem lookup_jr : ∀ (cc : Option Cond) (e8 : Byte), Lookup.Statement (Instr.jr cc e8)
  | none, e8 => Lookup.jrE8 e8
  | some .nz, e8 => Lookup.jrNzE8 e8
  | some .z, e8 => Lookup.jrZE8 e8
  | some .nc, e8 => Lookup.jrNcE8 e8
  | some .c, e8 => Lookup.jrCE8 e8

theorem lookup_jp : ∀ (cc : Option Cond) (a16 : Word), Lookup.Statement (Instr.jp cc a16)
  | none, a16 => Lookup.jpA16 a16
  | some .nz, a16 => Lookup.jpNzA16 a16
  | some .z, a16 => Lookup.jpZA16 a16
  | some .nc, a16 => Lookup.jpNcA16 a16
  | some .c, a16 => Lookup.jpCA16 a16

/-- The opcode of JR: 0x18, or 0x20 and the condition code in bits 4:3 (R98, R190, R191). -/
def jrOpcode : Option Cond → Byte
  | none => 0x18
  | some cond => BitVec.ofNat 8 (0x20 + 8 * condCode cond)

/-- The opcode of JP: 0xC3, or 0xC2 and the condition code in bits 4:3 (R98, R192, R193). -/
def jpOpcode : Option Cond → Byte
  | none => 0xC3
  | some cond => BitVec.ofNat 8 (0xC2 + 8 * condCode cond)

theorem encode_jr (cc : Option Cond) (e8 : Byte) : encode (Instr.jr cc e8) = [jrOpcode cc, e8] := by
  rcases cc with _ | _ | _ | _ | _ <;> exact encode_plain rfl

theorem encode_jp (cc : Option Cond) (a16 : Word) :
    encode (Instr.jp cc a16) = [jpOpcode cc, a16.extractLsb' 0 8, a16.extractLsb' 8 8] := by
  rcases cc with _ | _ | _ | _ | _ <;> exact encode_plain rfl

/-! ### The statements -/

/-- Settles O49: taken, JR is one `relativeJump` past its operand; not taken, it only moves past it. -/
theorem relativeJump : Obligations.RelativeJump := by
  refine fun cc e8 => ⟨encode_jr cc e8, missingOperandHalts_of_lookup (lookup_jr cc e8), fun s =>
    ⟨fun hcc hlow hhigh => ?_, fun hcc hout => ?_, fun hcc => ?_⟩⟩
  · have hjump := relativeJump_of_range (s := s.advancePc 1) hlow hhigh
    obtain ⟨t, hexec, hpc, hrest⟩ := jumps_of_exec ((exec_jr_of_condHolds hcc e8).trans (congrArg _ hjump))
    exact ⟨t, hexec, by rw [hpc]; exact toNat_ofInt_of_range hlow hhigh, hrest⟩
  · have hfault := relativeJump_of_not_range (s := s.advancePc 1) hout
    exact (exec_jr_of_condHolds hcc e8).trans (congrArg _ hfault)
  · exact ⟨_, exec_jr_of_not_condHolds hcc e8, plainFrame_advancePc s 1⟩

/-- Settles O50: taken, JP is one write of `pc` past its operand, and JP HL is one without operands; not taken, JP only
moves past its operand. -/
theorem absoluteJump : Obligations.AbsoluteJump := by
  refine ⟨fun cc a16 => ⟨encode_jp cc a16, missingOperandHalts_of_lookup (lookup_jp cc a16), fun s =>
    ⟨fun hcc => ?_, fun hcc => ?_⟩⟩, rfl, fun s => ?_⟩
  · exact jumps_of_exec (exec_jp_of_condHolds hcc a16)
  · exact ⟨_, exec_jp_of_not_condHolds hcc a16, plainFrame_advancePc s 2⟩
  · exact jumps_of_exec (n := 0) (by rw [advancePc_zero]; rfl)

end Sys2Proof.Proofs
end

section
/-! The calls and returns (46_calls.md): a push that stores and one that faults, a pop that reads and one that faults, then
the statements. -/

namespace Sys2Proof.Proofs

open Sys2Proof Sys2Proof.Machine
open Sys2Proof.Laws

/-! ### A push -/

/-- With the new SP on a byte of VRAM or IO, a push without room faults at the byte after it (R75, R284). -/
theorem not_storable_of_not_pushable {sp : Word} (hp : ¬ Pushable sp) (hlow : Storable (sp - 2)) : ¬ Storable (sp - 1) := by
  simp only [Pushable, Storable] at hp hlow ⊢
  bv_omega

/-- A push whose low byte takes no store has moved SP and nothing else (R210). -/
theorem pushThen_of_not_storable_low {s : State} (hlow : ¬ Storable (s.sp - 2)) (v : Word) (rest : State → State) :
    pushThen v s rest = (s.setSp (s.sp - 2)).raise (.unmappedAddressError (s.sp - 2)) :=
  writeByteThen_none (writeByte_of_not_storable hlow _) _

/-- A push whose high byte takes no store keeps its low byte (R75). -/
theorem pushThen_of_not_storable_high {s t : State} {v : Word} (hhigh : ¬ Storable (s.sp - 1))
    (hwrite : (s.setSp (s.sp - 2)).writeByte (s.sp - 2) (loByte v) = some t) (rest : State → State) :
    pushThen v s rest = t.raise (.unmappedAddressError (s.sp - 1)) := by
  have hnext : s.sp - 2 + 1 = s.sp - 1 := by bv_omega
  rw [pushThen, writeWordThen, writeByteThen_some hwrite, hnext]
  exact writeByteThen_none (writeByte_of_not_storable hhigh _) _

/-- An instruction that moves past its operands, pushes where SP has room and then moves to `target` stores the word and
changes nothing else (R200, R284). -/
theorem pushes_of_exec {i : Instr} {s : State} {n : Nat} {v target : Word} (hinv : s.Inv) (hp : Pushable s.sp)
    (hexec : exec i s = .next (pushThen v (s.advancePc n) fun t => t.setPc target)) : Pushes i s v target := by
  obtain ⟨u, hpush, -, hsp, -, hf, hlow, hhigh, hframe⟩ := pushThen_stores (hinv.advancePc n) v hp
  have hroom : 2 ≤ s.sp.toNat := by unfold Pushable at hp; omega
  have hdown : u.sp.toNat = s.sp.toNat - 2 := (congrArg _ hsp).trans (BitVec.toNat_sub_of_le hroom)
  exact ⟨u.setPc target, hexec.trans (congrArg _ (hpush _)), hdown, hlow, hhigh, rfl, hf,
    (frame_of_advancePc hframe).trans (frame_setPc u target)⟩

/-- An instruction that moves past its operands and pushes where SP has no room faults at the first stack byte that takes
no store, whatever comes after the push (R75, R200, R210). -/
theorem pushFaults_of_exec {i : Instr} {s : State} {n : Nat} {v : Word} {rest : State → State} (hinv : s.Inv)
    (hp : ¬ Pushable s.sp) (hexec : exec i s = .next (pushThen v (s.advancePc n) rest)) : PushFaults i s v n := by
  by_cases hlow : Storable (s.sp - 2)
  · have hhigh : ¬ Storable (s.sp - 1) := not_storable_of_not_pushable hp hlow
    have hmoved : ((s.advancePc n).setSp (s.sp - 2)).Inv := (hinv.advancePc n).setSp _
    obtain ⟨t, hwrite⟩ := (writeByte_isSome_iff hmoved.romSize (s.sp - 2) (loByte v)).2 hlow
    obtain ⟨hf, hsp, hpc, -, hconfig, hregs⟩ := writeByte_fields hwrite
    have hfault := pushThen_of_not_storable_high (s := s.advancePc n) hhigh hwrite rest
    have hstored : t.readByte (s.sp - 2) = some (loByte v) := readByte_writeByte_same hmoved.canonical hwrite
    have hkept : ∀ addr, addr ≠ s.sp - 2 → t.readByte addr = s.readByte addr :=
      fun addr hne => (readByte_writeByte_other hwrite hne).trans (readByte_congr rfl rfl addr)
    exact ⟨_, hexec.trans (congrArg _ hfault), hsp, hpc, hf, fun r => by simp [hregs], hconfig,
      fun hn => absurd hlow hn, fun _ => ⟨rfl, hstored, hkept⟩⟩
  · have hfault := pushThen_of_not_storable_low (s := s.advancePc n) hlow v rest
    exact ⟨_, hexec.trans (congrArg _ hfault), rfl, rfl, rfl, fun r => by simp, rfl, fun _ => ⟨rfl, fun _ => rfl⟩,
      fun h => absurd h hlow⟩

/-! ### A pop -/

theorem popThen_of_readByte {s : State} {lo hi : Byte} (hlo : s.readByte s.sp = some lo)
    (hhi : s.readByte (s.sp + 1) = some hi) (rest : Word → State → State) :
    popThen s rest = rest (wordOf hi lo) (s.setSp (s.sp + 2)) := by
  rw [popThen, readWordThen, readByteThen_some hlo, readByteThen_some hhi]

theorem popThen_of_unmapped_low {s : State} (hlo : s.readByte s.sp = none) (rest : Word → State → State) :
    popThen s rest = s.raise (.unmappedAddressError s.sp) := by
  rw [popThen, readWordThen, readByteThen_none hlo]

theorem popThen_of_unmapped_high {s : State} {lo : Byte} (hlo : s.readByte s.sp = some lo)
    (hhi : s.readByte (s.sp + 1) = none) (rest : Word → State → State) :
    popThen s rest = s.raise (.unmappedAddressError (s.sp + 1)) := by
  rw [popThen, readWordThen, readByteThen_some hlo, readByteThen_none hhi]

/-- A write of SP has the empty frame. -/
theorem frame_setSp (s : State) (v : Word) : Frame s (s.setSp v) [] [] :=
  .of_fields (fun r _ => s.get8_setSp r v) rfl rfl rfl _

/-! ### Taken and not taken -/

theorem exec_call_of_condHolds {s : State} {cc : Option Cond} (h : CondHolds s cc) (a16 : Word) :
    exec (Instr.call cc a16) s = .next (pushThen (s.pc + 2) (s.advancePc 2) fun t => t.setPc a16) := by
  rw [exec_call, (taken_iff s cc).2 h]
  rfl

theorem exec_call_of_not_condHolds {s : State} {cc : Option Cond} (h : ¬ CondHolds s cc) (a16 : Word) :
    exec (Instr.call cc a16) s = .next (s.advancePc 2) := by
  rw [exec_call, (taken_false_iff s cc).2 h]
  rfl

theorem exec_retCond_of_condHolds {s : State} {cc : Option Cond} (h : CondHolds s cc) :
    exec (Instr.retCond cc) s = .next (popThen s fun v t => t.setPc v) := by
  rw [exec_retCond, (taken_iff s cc).2 h]
  rfl

theorem exec_retCond_of_not_condHolds {s : State} {cc : Option Cond} (h : ¬ CondHolds s cc) :
    exec (Instr.retCond cc) s = .next s := by
  rw [exec_retCond, (taken_false_iff s cc).2 h]
  rfl

/-! ### The rows and the encodings of the families -/

theorem lookup_call : ∀ (cc : Option Cond) (a16 : Word), Lookup.Statement (Instr.call cc a16)
  | none, a16 => Lookup.callA16 a16
  | some .nz, a16 => Lookup.callNzA16 a16
  | some .z, a16 => Lookup.callZA16 a16
  | some .nc, a16 => Lookup.callNcA16 a16
  | some .c, a16 => Lookup.callCA16 a16

/-- The opcode of CALL: 0xCD, or 0xC4 and the condition code in bits 4:3 (R98, R200, R201). -/
def callOpcode : Option Cond → Byte
  | none => 0xCD
  | some cond => BitVec.ofNat 8 (0xC4 + 8 * condCode cond)

/-- The opcode of RET: 0xC9, or 0xC0 and the condition code in bits 4:3 (R98, R202, R203). -/
def retOpcode : Option Cond → Byte
  | none => 0xC9
  | some cond => BitVec.ofNat 8 (0xC0 + 8 * condCode cond)

theorem encode_call (cc : Option Cond) (a16 : Word) :
    encode (Instr.call cc a16) = [callOpcode cc, a16.extractLsb' 0 8, a16.extractLsb' 8 8] := by
  rcases cc with _ | _ | _ | _ | _ <;> exact encode_plain rfl

theorem encode_retCond (cc : Option Cond) : encode (Instr.retCond cc) = [retOpcode cc] := by
  rcases cc with _ | _ | _ | _ | _ <;> exact encode_plain rfl

/-! ### The statements -/

/-- Settles O51: taken, CALL is one push of the address past its operand, which stores and goes on to a write of `pc`, or
faults; not taken, it only moves past its operand. -/
theorem callPushesTheReturnAddress : Obligations.CallPushesTheReturnAddress := by
  refine fun cc a16 => ⟨encode_call cc a16, missingOperandHalts_of_lookup (lookup_call cc a16), fun s hinv =>
    ⟨fun hcc hp => ?_, fun hcc hp => ?_, fun hcc => ?_⟩⟩
  · exact pushes_of_exec hinv hp (exec_call_of_condHolds hcc a16)
  · exact pushFaults_of_exec hinv hp (exec_call_of_condHolds hcc a16)
  · exact ⟨_, exec_call_of_not_condHolds hcc a16, plainFrame_advancePc s 2⟩

/-- Settles O52: taken, RET is one pop into `pc`, or the fault of its first byte that does not read; not taken, it is the
identity. -/
theorem returnPopsPc : Obligations.ReturnPopsPc := by
  refine fun cc => ⟨encode_retCond cc, fun s =>
    ⟨fun lo hi hcc hlo hhi => ?_, fun hcc hlo => ?_, fun lo hcc hlo hhi => ?_, fun hcc => ?_⟩⟩
  · have hexec := exec_retCond_of_condHolds hcc
    rw [popThen_of_readByte hlo hhi] at hexec
    exact ⟨_, hexec, rfl, BitVec.toNat_add s.sp 2, rfl, (frame_setSp s _).trans (frame_setPc _ _)⟩
  · have hexec := exec_retCond_of_condHolds hcc
    rw [popThen_of_unmapped_low hlo] at hexec
    exact halts_of_raise hexec
  · have hexec := exec_retCond_of_condHolds hcc
    rw [popThen_of_unmapped_high hlo hhi] at hexec
    exact halts_of_raise hexec
  · exact ⟨s, exec_retCond_of_not_condHolds hcc, by simpa only [advancePc_zero] using plainFrame_advancePc s 0⟩

end Sys2Proof.Proofs
end

section
/-! The stack (47_stack.md): PUSH is one push of the pair, POP one pop into it, and the round trip is a push followed by
POP's statement. -/

namespace Sys2Proof.Proofs

open Sys2Proof Sys2Proof.Machine

/-! ### PUSH -/

theorem encode_push (p : Pair) : encode (Instr.push p) = [BitVec.ofNat 8 (0xC5 + 16 * pairCode p)] := by
  cases p <;> rfl

/-- Where SP has room, PUSH stores the pair and changes nothing else (R210, R284). -/
theorem pushes_push {s : State} (hinv : s.Inv) (hp : Pushable s.sp) (p : Pair) :
    Pushes (Instr.push p) s (s.getPair p) s.pc := by
  obtain ⟨u, hstores, -, hsp, hpc, hf, hlow, hhigh, hframe⟩ := pushThen_stores hinv (s.getPair p) hp
  have hroom : 2 ≤ s.sp.toNat := by unfold Pushable at hp; omega
  have hdown : u.sp.toNat = s.sp.toNat - 2 := (congrArg _ hsp).trans (BitVec.toNat_sub_of_le hroom)
  exact ⟨u, (exec_push s p).trans (congrArg _ (hstores _)), hdown, hlow, hhigh, hpc, hf, hframe⟩

/-- Where SP has no room, PUSH is the fault of its push (R75, R210). -/
theorem pushFaults_push {s : State} (hinv : s.Inv) (hp : ¬ Pushable s.sp) (p : Pair) :
    PushFaults (Instr.push p) s (s.getPair p) 0 :=
  pushFaults_of_exec hinv hp (by rw [advancePc_zero]; exact exec_push s p)

/-- Bits 3:0 of AF are those of F (R21, R27). -/
theorem getPair_af_lowNibble {s : State} (h : s.f &&& 0x0F#8 = 0#8) : s.getPair .af &&& 0x000F = 0 := by
  have mask : (0x000F : Word) = 0#8 ++ 0x0F#8 := by decide
  rw [State.getPair, wordOf, mask, BitVec.and_append, h, BitVec.and_zero]
  rfl

/-- Settles O54: PUSH is one push of the pair, which stores or faults; the invariant keeps the low nibble of F at zero. -/
theorem pushStoresThePair : Obligations.PushStoresThePair := fun p =>
  ⟨encode_push p, fun _ hinv =>
    ⟨fun hp => ⟨pushes_push hinv hp p, by rintro rfl; exact getPair_af_lowNibble hinv.lowNibble⟩,
      fun hp => pushFaults_push hinv hp p⟩⟩

/-! ### POP -/

theorem encode_pop (p : Pair) : encode (Instr.pop p) = [BitVec.ofNat 8 (0xC1 + 16 * pairCode p)] := by
  cases p <;> rfl

/-- With both stack bytes readable POP moves SP and writes the pair (R212, R213). -/
theorem exec_pop_of_readByte {s : State} {lo hi : Byte} (hlo : s.readByte s.sp = some lo)
    (hhi : s.readByte (s.sp + 1) = some hi) (p : Pair) :
    exec (Instr.pop p) s = .next ((s.setSp (s.sp + 2)).setPair p (wordOf hi lo)) := by
  rw [exec_pop, popPair, popThen_of_readByte hlo hhi]

/-- A word written to AF leaves its high byte in A and its low byte, without bits 3:0, in F (R27, R213). -/
theorem setPair_af_wordOf (s : State) (hi lo : Byte) :
    (s.setPair .af (wordOf hi lo)).a = hi ∧ (s.setPair .af (wordOf hi lo)).f = lo &&& 0xF0 :=
  ⟨hiByte_wordOf hi lo, congrArg flagBits (loByte_wordOf hi lo)⟩

/-- Settles O55: POP is one pop into the pair, or the fault of its first byte that does not read. -/
theorem popLoadsThePair : Obligations.PopLoadsThePair := by
  refine fun p => ⟨encode_pop p, fun s => ⟨fun lo hi hlo hhi => ?_, fun hlo => ?_, fun lo hlo hhi => ?_⟩⟩
  · have hframe := (frame_setSp s (s.sp + 2)).trans (frame_setPair _ p (wordOf hi lo))
    refine ⟨_, exec_pop_of_readByte hlo hhi p, fun hp => ?_, ?_, ?_, State.setPair_pc _ p _, hframe⟩
    · exact ⟨State.getPair_setPair _ p hp _, setPair_f_of_ne_af _ hp _⟩
    · rintro rfl
      exact setPair_af_wordOf _ hi lo
    · rw [State.setPair_sp]
      exact BitVec.toNat_add s.sp 2
  · exact halts_of_raise ((exec_pop s p).trans (congrArg _ (popThen_of_unmapped_low hlo _)))
  · exact halts_of_raise ((exec_pop s p).trans (congrArg _ (popThen_of_unmapped_high hlo hhi _)))

/-! ### PUSH and then POP -/

/-- Settles O56: POP reads at its SP the two bytes PUSH has stored there, and together they are the pushed pair. -/
theorem pushThenPopMovesThePair : Obligations.PushThenPopMovesThePair := by
  intro p p' s hinv hp _
  obtain ⟨t, hstores, -, hsp, -, hf, hlow, hhigh, hframe⟩ := pushThen_stores hinv (s.getPair p) hp
  have hpush : exec (Instr.push p) s = .next t := (exec_push s p).trans (congrArg _ (hstores _))
  have hnext : t.sp + 1 = s.sp - 1 := by bv_omega
  obtain ⟨-, hpopAt⟩ := popLoadsThePair p'
  obtain ⟨hloads, -⟩ := hpopAt t
  obtain ⟨u, hpop, hpair, haf, hup, -, hframe'⟩ := hloads _ _ (hsp ▸ hlow) (hnext ▸ hhigh)
  have hpushed : wordOf (hiByte (s.getPair p)) (loByte (s.getPair p)) = s.getPair p := wordOf_hiByte_loByte _
  have hback : u.sp = s.sp := by bv_omega
  refine ⟨t, u, hpush, hpop, hback, fun hp' => ?_, fun hp' => ?_, hframe', hframe, hlow, hhigh⟩
  · obtain ⟨hvalue, hflags⟩ := hpair hp'
    exact ⟨hvalue.trans hpushed, hflags.trans hf⟩
  · obtain ⟨ha, hflags⟩ := haf hp'
    calc u.getPair .af
      _ = wordOf (hiByte (s.getPair p)) (flagBits (loByte (s.getPair p))) := congrArg₂ wordOf ha hflags
      _ = s.getPair p &&& 0xFFF0 := by rw [wordOf_flagBits, hpushed]

end Sys2Proof.Proofs
end

section
/-! Decoding and encoding (30_encoding.md): every instruction has its row, so the decoder inverts the encoder; and whatever
decodes stands under its key, so it is the encoding. -/

namespace Sys2Proof.Proofs

open Sys2Proof Sys2Proof.Machine
open Sys2Proof.Laws

/-! ### Every instruction has its row -/

/-- A row without an immediate that makes `i` is the row of `i`, when `i` has no operand bytes. -/
theorem lookup_of_noImm {i : Instr} (hrow : dispatchTable i.key = some (.noImm i)) (hnone : i.operandBytes = []) :
    Lookup.Statement i :=
  ⟨.noImm i, hrow, fun rest => by rw [hnone]; rfl, rfl⟩

/-- The decoder's table and the encoder's agree on every instruction (R92, R93, R103). -/
theorem lookup_statement (i : Instr) : Lookup.Statement i := by
  induction i using Instr.byFamily with
  | ldWide w v => exact lookup_ldWide w v
  | ldImm8 o v =>
    cases o with
    | reg r => exact lookup_ldImm8 r v
    | indHl => exact Lookup.ldIndHlD8 v
  | jr cc e8 => exact lookup_jr cc e8
  | jp cc a16 => exact lookup_jp cc a16
  | call cc a16 => exact lookup_call cc a16
  | addAD8 v => exact Lookup.addAD8 v
  | subD8 v => exact Lookup.subD8 v
  | andD8 v => exact Lookup.andD8 v
  | xorD8 v => exact Lookup.xorD8 v
  | orD8 v => exact Lookup.orD8 v
  | cpD8 v => exact Lookup.cpD8 v
  | ldhIndA8A v => exact Lookup.ldhIndA8A v
  | ldhAIndA8 v => exact Lookup.ldhAIndA8 v
  | ldIndA16A v => exact Lookup.ldIndA16A v
  | ldAIndA16 v => exact Lookup.ldAIndA16 v
  | retCond cc => rcases cc with _ | _ | _ | _ | _ <;> exact lookup_of_noImm rfl rfl
  | incWide w | decWide w => cases w <;> exact lookup_of_noImm rfl rfl
  | push p | pop p => cases p <;> exact lookup_of_noImm rfl rfl
  | ldReg r r' => cases r <;> cases r' <;> exact lookup_of_noImm rfl rfl
  | ldFromHl r | ldToHl r => cases r <;> exact lookup_of_noImm rfl rfl
  | bit b o => fin_cases b <;> rcases o with (_ | _ | _ | _ | _ | _ | _) | _ <;> exact lookup_of_noImm rfl rfl
  | inc o | dec o | add o | sub o | and8 o | xor8 o | or8 o | cp o | rlc o | rrc o | rl o | rr o | sla o | sra o | srl o =>
    rcases o with (_ | _ | _ | _ | _ | _ | _) | _ <;> exact lookup_of_noImm rfl rfl
  | _ => exact lookup_of_noImm rfl rfl

/-- Settles O1: the opcode bytes lead to the key, the machine has the row under it, and the row makes the instruction of its
operand bytes. -/
theorem decodeInvertsEncode : Obligations.DecodeInvertsEncode := by
  intro cfg i rest hwf
  obtain ⟨row, hrow, happly, hdec⟩ := lookup_statement i
  rw [encode, List.append_assoc, decode_opcodeBytes hrow, decodeKey, lookup_of_wellFormed hwf hrow hdec]
  simp only [happly rest]

/-! ### Whatever decodes -/

/-- The machine has every instruction it finds the row of (R103, U9). -/
theorem wellFormed_of_lookup {cfg : Config} {i : Instr} {row : Row} (h : lookup cfg i.key = some row) :
    i.wellFormed cfg = true := by
  obtain ⟨hrow, hpresent⟩ := lookup_eq_some h
  obtain ⟨row', hrow', -, hdec⟩ := lookup_statement i
  obtain rfl : row = row' := Option.some.inj (hrow.symm.trans hrow')
  rw [hdec] at hpresent
  simpa [Instr.wellFormed, or_iff_not_imp_left] using hpresent

/-- What a key and the bytes after the opcode decode to: an instruction of that key that the machine has, whose operand bytes
they begin with. -/
theorem decodeKey_eq_instr {cfg : Config} {key : Word} {bytes rest : List Byte} {i : Instr}
    (h : decodeKey cfg key bytes = .instr i rest) :
    i.wellFormed cfg = true ∧ i.key = key ∧ bytes = i.operandBytes ++ rest := by
  unfold decodeKey at h
  split at h
  · cases h
  · next row hlookup =>
    split at h
    · next happly =>
      cases h
      obtain ⟨rfl, hbytes⟩ := (lookup_under hlookup).apply happly
      exact ⟨wellFormed_of_lookup hlookup, rfl, hbytes⟩
    · cases h

/-- Settles O2: a list that decodes is an opcode, plain or prefixed, and then the operand bytes of its instruction. -/
theorem decodedBytesAreTheEncoding : Obligations.DecodedBytesAreTheEncoding := by
  intro cfg bytes rest i h
  match bytes, h with
  | op :: tail, h =>
    simp only [decode] at h
    split at h
    · next hprefix =>
      match tail, h with
      | second :: left, h =>
        obtain ⟨hwf, hkey, hleft⟩ := decodeKey_eq_instr h
        exact ⟨hwf, by rw [encode, opcodeBytes_prefixed hkey, hprefix, hleft]; rfl⟩
    · obtain ⟨hwf, hkey, htail⟩ := decodeKey_eq_instr h
      exact ⟨hwf, by rw [encode, opcodeBytes_plain hkey, htail]; rfl⟩

end Sys2Proof.Proofs
end

section
/-! The whole-machine rules: what one instruction may do to the state, as single updates with the permission each needs; then
what every instruction and every step keeps. -/

namespace Sys2Proof.Proofs

open Sys2Proof Sys2Proof.Machine

/-! ### Single updates -/

/-- One update of the state that an instruction `i` may make. F, SP and `pc` are written by the instructions of their
summary tables alone (R26, R29, R31), and a fault is one of those of R242 and R244. -/
inductive Update (i : Instr) : State → State → Prop
  | set8 (s : State) (r : Reg8) (v : Byte) : Update i s (s.set8 r v)
  | flags (s : State) (f : Byte) (hwrites : writesFlags i = true) (hlow : s.f &&& 0x0F#8 = 0#8 → f &&& 0x0F#8 = 0#8) :
    Update i s { s with f := f }
  | setSp (s : State) (v : Word) (hwrites : writesSp i = true) : Update i s (s.setSp v)
  | setPc (s : State) (target : Word) (htransfers : transfersControl i = true) : Update i s (s.setPc target)
  | store {s t : State} {addr : Word} {v : Byte} (hwrite : s.writeByte addr v = some t) : Update i s t
  | unmapped (s : State) (addr : Word) (hstore : s.config.wf = true → ¬ Storable addr) :
    Update i s (s.raise (.unmappedAddressError addr))
  | invalidJump (s : State) (pc : Word) (offset : Int) (hjump : ∃ cc e8, i = Instr.jr cc e8) :
    Update i s (s.raise (.invalidJumpError pc offset))

/-- Any number of updates, one after the other. -/
abbrev Updates (i : Instr) : State → State → Prop := Relation.ReflTransGen (Update i)

theorem Update.updates {i : Instr} {s t : State} (h : Update i s t) : Updates i s t := .single h

/-- What every single update keeps, the updates keep. -/
theorem Updates.keep {i : Instr} {P : State → Prop} (hupdate : ∀ {u v}, Update i u v → P u → P v) {s t : State}
    (h : Updates i s t) (hs : P s) : P t := by
  induction h with
  | refl => exact hs
  | tail _ hlast ih => exact hupdate hlast ih

/-! ### The shared operations are updates -/

section
variable {i : Instr} {s : State}

theorem updates_readByteThen (addr : Word) {rest : Byte → State} (hrest : ∀ v, Updates i s (rest v)) :
    Updates i s (readByteThen addr s rest) := by
  rcases readByteThen_cases addr s rest with ⟨v, -, e⟩ | ⟨hnone, e⟩ <;> rw [e]
  · exact hrest v
  · exact (Update.unmapped s addr fun _ hs => (readByte_eq_none_iff s addr).1 hnone (.inr hs)).updates

theorem updates_writeByteThen (addr : Word) (v : Byte) {rest : State → State} (hrest : ∀ t, Updates i t (rest t)) :
    Updates i s (writeByteThen addr v s rest) := by
  rcases writeByteThen_cases addr v s rest with ⟨t, hwrite, e⟩ | ⟨hnone, e⟩ <;> rw [e]
  · exact .head (.store hwrite) (hrest t)
  · exact (Update.unmapped s addr fun hc => (writeByte_eq_none_iff hc addr v).1 hnone).updates

theorem updates_pushThen (hsp : writesSp i = true) (v : Word) {rest : State → State}
    (hrest : ∀ t, Updates i t (rest t)) : Updates i s (pushThen v s rest) :=
  .head (.setSp s _ hsp) (updates_writeByteThen _ _ fun _ => updates_writeByteThen _ _ hrest)

theorem updates_popThen (hsp : writesSp i = true) {rest : Word → State → State}
    (hrest : ∀ v t, Updates i t (rest v t)) : Updates i s (popThen s rest) :=
  updates_readByteThen _ fun _ => updates_readByteThen _ fun _ => .head (.setSp s _ hsp) (hrest _ _)

theorem updates_readOperandThen (o : Operand8) {rest : Byte → State} (hrest : ∀ v, Updates i s (rest v)) :
    Updates i s (readOperandThen o s rest) := by
  cases o with
  | reg r => exact hrest _
  | indHl => exact updates_readByteThen _ hrest

theorem updates_modifyOperand (res : Byte → Byte) {flags : Byte → State → State} (o : Operand8)
    (hflags : ∀ v t, Updates i t (flags v t)) : Updates i s (modifyOperand res flags o s) := by
  refine updates_readOperandThen o fun v => ?_
  cases o with
  | reg r => exact .head (.set8 s r _) (hflags v _)
  | indHl => exact updates_writeByteThen _ _ (hflags v)

theorem updates_writeZNH (hf : writesFlags i = true) (z n h : Bool) : Updates i s (s.writeZNH z n h) :=
  (Update.flags s (s.writeZNH z n h).f hf (by simp)).updates

theorem updates_writeZNHC (hf : writesFlags i = true) (z n h c : Bool) : Updates i s (s.writeZNHC z n h c) :=
  (Update.flags s (s.writeZNHC z n h c).f hf (by simp)).updates

/-- A write of A and then of the four flags. -/
theorem updates_setA_writeZNHC (hf : writesFlags i = true) (v : Byte) (z n h c : Bool) :
    Updates i s ((s.set8 .a v).writeZNHC z n h c) :=
  .head (.set8 s .a v) (updates_writeZNHC hf z n h c)

theorem updates_set8_set8 (r r' : Reg8) (v v' : Byte) : Updates i s ((s.set8 r v).set8 r' v') :=
  .head (.set8 s r v) (Update.set8 _ r' v').updates

theorem updates_setPair (p : Pair) (v : Word) (hf : p = .af → writesFlags i = true) : Updates i s (s.setPair p v) := by
  cases p with
  | bc => exact updates_set8_set8 .b .c (hiByte v) (loByte v)
  | de => exact updates_set8_set8 .d .e (hiByte v) (loByte v)
  | hl => exact updates_set8_set8 .h .l (hiByte v) (loByte v)
  | af => exact .head (.set8 s .a _) (Update.flags _ _ (hf rfl) fun _ => flagBits_low _).updates

theorem updates_setWide (w : Wide) (v : Word) (hsp : w = .sp → writesSp i = true) : Updates i s (s.setWide w v) := by
  cases w with
  | bc => exact updates_setPair .bc v nofun
  | de => exact updates_setPair .de v nofun
  | hl => exact updates_setPair .hl v nofun
  | sp => exact (Update.setSp s v (hsp rfl)).updates

theorem updates_loadFrom (r : Reg8) (addr : Word) : Updates i s (loadFrom r addr s) :=
  updates_readByteThen addr fun v => (Update.set8 s r v).updates

theorem updates_storeAt (addr : Word) (v : Byte) : Updates i s (storeAt addr v s) :=
  updates_writeByteThen addr v fun _ => .refl

theorem updates_loadAuto (move : Word → Word) : Updates i s (loadAuto move s) :=
  updates_readByteThen _ fun v => .head (.set8 s .a v) (updates_setPair .hl _ nofun)

theorem updates_storeAuto (move : Word → Word) : Updates i s (storeAuto move s) :=
  updates_writeByteThen _ _ fun _ => updates_setPair .hl _ nofun

theorem updates_setPc (hpc : transfersControl i = true) (target : Word) : Updates i s (s.setPc target) :=
  (Update.setPc s target hpc).updates

theorem updates_relativeJump {cc : Option Cond} {e8 : Byte} (hi : i = Instr.jr cc e8) (hpc : transfersControl i = true) :
    Updates i s (Machine.relativeJump e8 s) := by
  unfold Machine.relativeJump
  split
  · exact (Update.invalidJump s _ _ ⟨cc, e8, hi⟩).updates
  · exact updates_setPc hpc _

theorem updates_jumpRelative {cc : Option Cond} {e8 : Byte} (hi : i = Instr.jr cc e8) (hpc : transfersControl i = true)
    (taken : Bool) : Updates i (s.advancePc 1) (jumpRelative taken e8 s) := by
  cases taken with
  | false => exact .refl
  | true => exact updates_relativeJump hi hpc

theorem updates_jumpAbsolute (hpc : transfersControl i = true) (taken : Bool) (a16 : Word) :
    Updates i (s.advancePc 2) (jumpAbsolute taken a16 s) := by
  cases taken with
  | false => exact .refl
  | true => exact updates_setPc hpc a16

theorem updates_callAbsolute (hsp : writesSp i = true) (hpc : transfersControl i = true) (taken : Bool) (a16 : Word) :
    Updates i (s.advancePc 2) (callAbsolute taken a16 s) := by
  cases taken with
  | false => exact .refl
  | true => exact updates_pushThen hsp _ fun _ => updates_setPc hpc a16

theorem updates_returnPop (hsp : writesSp i = true) (hpc : transfersControl i = true) (taken : Bool) :
    Updates i s (returnPop taken s) := by
  cases taken with
  | false => exact .refl
  | true => exact updates_popThen hsp fun v _ => updates_setPc hpc v

end

/-! ### Every instruction is its operands and then updates -/

/-- An instruction moves `pc` past its operand bytes and then makes updates it may make (R94). -/
def ExecUpdates (i : Instr) : Prop :=
  ∀ s, ∃ t, exec i s = .next t ∧ Updates i (s.advancePc i.operandLength) t

theorem execUpdates {i : Instr} {f : State → State} (n : Nat) (hexec : ∀ s, exec i s = .next (f s))
    (hlength : i.operandLength = n) (h : ∀ s, Updates i (s.advancePc n) (f s)) : ExecUpdates i :=
  fun s => ⟨f s, hexec s, hlength ▸ h s⟩

theorem execUpdates_noOperands {i : Instr} {f : State → State} (hexec : ∀ s, exec i s = .next (f s))
    (hlength : i.operandLength = 0) (h : ∀ s, Updates i s (f s)) : ExecUpdates i :=
  execUpdates 0 hexec hlength fun s => by rw [advancePc_zero]; exact h s

theorem exec_updates (i : Instr) : ExecUpdates i := by
  induction i using Instr.byFamily with
  | ldReg r r' =>
    cases r <;> cases r' <;> exact execUpdates_noOperands (fun _ => rfl) rfl fun s => (Update.set8 s _ _).updates
  | ldFromHl r => cases r <;> exact execUpdates_noOperands (fun _ => rfl) rfl fun _ => updates_loadFrom _ _
  | ldToHl r => cases r <;> exact execUpdates_noOperands (fun _ => rfl) rfl fun _ => updates_storeAt _ _
  | ldImm8 o v =>
    cases o with
    | reg r => cases r <;> exact execUpdates 1 (fun _ => rfl) rfl fun s => (Update.set8 (s.advancePc 1) _ v).updates
    | indHl => exact execUpdates 1 (fun _ => rfl) rfl fun _ => updates_storeAt _ v
  | ldWide w v =>
    cases w <;> exact execUpdates 2 (fun _ => rfl) rfl fun _ => updates_setWide _ v (by simp [writesSp, Instr.ldWide])
  | ldAIndBc | ldAIndDe | ldAIndC => exact execUpdates_noOperands (fun _ => rfl) rfl fun _ => updates_loadFrom _ _
  | ldIndBcA | ldIndDeA | ldIndCA => exact execUpdates_noOperands (fun _ => rfl) rfl fun _ => updates_storeAt _ _
  | ldAIndHlInc | ldAIndHlDec => exact execUpdates_noOperands (fun _ => rfl) rfl fun _ => updates_loadAuto _
  | ldIndHlIncA | ldIndHlDecA => exact execUpdates_noOperands (fun _ => rfl) rfl fun _ => updates_storeAuto _
  | ldAIndA16 a16 => exact execUpdates 2 (fun _ => rfl) rfl fun _ => updates_loadFrom _ _
  | ldIndA16A a16 => exact execUpdates 2 (fun _ => rfl) rfl fun _ => updates_storeAt _ _
  | ldhAIndA8 a8 => exact execUpdates 1 (fun _ => rfl) rfl fun _ => updates_loadFrom _ _
  | ldhIndA8A a8 => exact execUpdates 1 (fun _ => rfl) rfl fun _ => updates_storeAt _ _
  | inc o | dec o =>
    rcases o with (_ | _ | _ | _ | _ | _ | _) | _ <;>
      exact execUpdates_noOperands (fun _ => rfl) rfl fun _ =>
        updates_modifyOperand _ _ fun _ _ => updates_writeZNH rfl _ _ _
  | rlc o | rrc o | rl o | rr o | sla o | sra o | srl o =>
    rcases o with (_ | _ | _ | _ | _ | _ | _) | _ <;>
      exact execUpdates_noOperands (fun _ => rfl) rfl fun _ =>
        updates_modifyOperand _ _ fun _ _ => updates_writeZNHC rfl _ _ _ _
  | add o | sub o | and8 o | xor8 o | or8 o =>
    rcases o with (_ | _ | _ | _ | _ | _ | _) | _ <;>
      exact execUpdates_noOperands (fun _ => rfl) rfl fun _ =>
        updates_readOperandThen _ fun _ => updates_setA_writeZNHC rfl _ _ _ _ _
  | cp o =>
    rcases o with (_ | _ | _ | _ | _ | _ | _) | _ <;>
      exact execUpdates_noOperands (fun _ => rfl) rfl fun _ =>
        updates_readOperandThen _ fun _ => updates_writeZNHC rfl _ _ _ _
  | bit b o =>
    fin_cases b <;> rcases o with (_ | _ | _ | _ | _ | _ | _) | _ <;>
      exact execUpdates_noOperands (fun _ => rfl) rfl fun _ =>
        updates_readOperandThen _ fun _ => updates_writeZNH rfl _ _ _
  | rlcaAcc | rrcaAcc | rlaAcc | rraAcc =>
    exact execUpdates_noOperands (fun _ => rfl) rfl fun _ => updates_setA_writeZNHC rfl _ _ _ _ _
  | addAD8 v | subD8 v | andD8 v | xorD8 v | orD8 v =>
    exact execUpdates 1 (fun _ => rfl) rfl fun _ => updates_setA_writeZNHC rfl _ _ _ _ _
  | cpD8 v => exact execUpdates 1 (fun _ => rfl) rfl fun _ => updates_writeZNHC rfl _ _ _ _
  | incWide w | decWide w =>
    cases w <;> exact execUpdates_noOperands (fun _ => rfl) rfl fun _ => updates_setWide _ _ (by decide)
  | push p =>
    cases p <;> exact execUpdates_noOperands (fun _ => rfl) rfl fun _ => updates_pushThen rfl _ fun _ => .refl
  | pop p =>
    cases p <;>
      exact execUpdates_noOperands (fun _ => rfl) rfl fun _ => updates_popThen rfl fun _ _ => updates_setPair _ _ (by decide)
  | jr cc e8 =>
    rcases cc with _ | _ | _ | _ | _ <;> exact execUpdates 1 (exec_jr · _ e8) rfl fun _ => updates_jumpRelative rfl rfl _
  | jp cc a16 =>
    rcases cc with _ | _ | _ | _ | _ <;> exact execUpdates 2 (exec_jp · _ a16) rfl fun _ => updates_jumpAbsolute rfl _ _
  | jpHl => exact execUpdates_noOperands (fun _ => rfl) rfl fun s => updates_setPc rfl s.hl
  | call cc a16 =>
    rcases cc with _ | _ | _ | _ | _ <;>
      exact execUpdates 2 (exec_call · _ a16) rfl fun _ => updates_callAbsolute rfl rfl _ _
  | retCond cc =>
    rcases cc with _ | _ | _ | _ | _ <;>
      exact execUpdates_noOperands (exec_retCond · _) rfl fun _ => updates_returnPop rfl rfl _

/-- All an instruction can do: its updates, with `pc` past its operand bytes. -/
theorem updates_of_exec {i : Instr} {s t : State} (h : exec i s = .next t) : Updates i (s.advancePc i.operandLength) t := by
  obtain ⟨t', hexec, hupdates⟩ := exec_updates i s
  rw [h] at hexec
  cases hexec
  exact hupdates

end Sys2Proof.Proofs
end

section
/-! What every instruction and every step keeps: one lemma per single update, carried along the updates of an instruction,
and the step as a fetch that faults or an instruction past its opcode bytes. -/

namespace Sys2Proof.Proofs

open Sys2Proof Sys2Proof.Machine

/-! ### What is kept -/

/-- From `s` to `t` neither a parameter nor a byte of ROM has changed (R5, R54). -/
def KeepsRom (s t : State) : Prop :=
  t.config = s.config ∧ ∀ addr : Word, addr.toNat < s.config.romSize → t.readByte addr = s.readByte addr

theorem KeepsRom.trans {s t u : State} (h : KeepsRom s t) (h' : KeepsRom t u) : KeepsRom s u := by
  obtain ⟨hc, hread⟩ := h
  obtain ⟨hc', hread'⟩ := h'
  exact ⟨hc'.trans hc, fun addr hrom => (hread' addr (hc ▸ hrom)).trans (hread addr hrom)⟩

theorem keepsRom_advancePc (s : State) (n : Nat) : KeepsRom s (s.advancePc n) := 
  ⟨rfl, fun addr _ => readByte_advancePc s n addr⟩

/-- The state runs or has taken UnmappedAddressError at an address that takes no store, unless a JR has made it (R242,
R244). -/
def RunsOrFaults (i : Instr) (t : State) : Prop :=
  t.Running ∨ (∃ addr, t.engine = .haltedOnError (.unmappedAddressError addr) ∧ ¬ Storable addr) ∨
    ∃ cc e8, i = Instr.jr cc e8

/-! ### One update -/

section
variable {i : Instr} {s t : State}

theorem Update.config_eq (h : Update i s t) : t.config = s.config := by
  cases h with
  | set8 r v => exact s.set8_config r v
  | store hwrite =>
    obtain ⟨-, -, rfl⟩ := writeByte_eq_some hwrite
    rfl
  | _ => rfl

theorem Update.inv (h : Update i s t) (hinv : s.Inv) : t.Inv := by
  cases h with
  | set8 r v => exact hinv.set8 r v
  | flags f _ hlow => exact hinv.of_eq rfl (hlow hinv.lowNibble) rfl
  | setSp v => exact hinv.setSp v
  | setPc target => exact hinv.setPc target
  | store hwrite => exact hinv.writeByte hwrite
  | unmapped | invalidJump => exact hinv.raise _

/-- ROM takes no store (R54, R59), and only a store changes memory. -/
theorem Update.keepsRom (h : Update i s t) : KeepsRom s t := by
  refine ⟨h.config_eq, fun addr hrom => ?_⟩
  cases h with
  | set8 r v => exact readByte_congr (s.set8_config r v) (s.set8_mem r v) addr
  | store hwrite =>
    obtain ⟨hne, -⟩ := writeByte_eq_some hwrite
    exact readByte_writeByte_other hwrite fun he => hne (he ▸ hrom)
  | _ => exact readByte_congr rfl rfl addr

theorem Update.sp_eq (h : Update i s t) (hsp : writesSp i = false) : t.sp = s.sp := by
  cases h with
  | set8 r v => exact s.set8_sp r v
  | setSp v hwrites => simp [hsp] at hwrites
  | store hwrite =>
    obtain ⟨-, -, rfl⟩ := writeByte_eq_some hwrite
    rfl
  | _ => rfl

theorem Update.f_eq (h : Update i s t) (hf : writesFlags i = false) : t.f = s.f := by
  cases h with
  | set8 r v => exact s.set8_f r v
  | flags f hwrites => simp [hf] at hwrites
  | store hwrite =>
    obtain ⟨-, -, rfl⟩ := writeByte_eq_some hwrite
    rfl
  | _ => rfl

theorem Update.pc_eq (h : Update i s t) (hpc : transfersControl i = false) : t.pc = s.pc := by
  cases h with
  | set8 r v => exact s.set8_pc r v
  | setPc target htransfers => simp [hpc] at htransfers
  | store hwrite =>
    obtain ⟨-, -, rfl⟩ := writeByte_eq_some hwrite
    rfl
  | _ => rfl

theorem Update.runsOrFaults (h : Update i s t) (hc : s.config.wf = true) (hs : RunsOrFaults i s) : RunsOrFaults i t := by
  cases h with
  | set8 r v => simpa only [RunsOrFaults, State.Running, State.set8_engine] using hs
  | store hwrite =>
    obtain ⟨-, -, rfl⟩ := writeByte_eq_some hwrite
    exact hs
  | unmapped addr hstore => exact .inr (.inl ⟨addr, rfl, hstore hc⟩)
  | invalidJump pc offset hjump => exact .inr (.inr hjump)
  | _ => exact hs

end

/-! ### One instruction -/

section
variable {i : Instr} {s t : State} (h : exec i s = .next t)
include h

theorem exec_inv (hinv : s.Inv) : t.Inv :=
  (updates_of_exec h).keep Update.inv (hinv.advancePc _)

theorem exec_keepsRom : KeepsRom s t :=
  (updates_of_exec h).keep (P := KeepsRom s) (fun hu hs => hs.trans hu.keepsRom) (keepsRom_advancePc s _)

theorem exec_sp (hsp : writesSp i = false) : t.sp = s.sp :=
  (updates_of_exec h).keep (P := fun u => u.sp = s.sp) (fun hu hs => (hu.sp_eq hsp).trans hs) rfl

theorem exec_f (hf : writesFlags i = false) : t.f = s.f :=
  (updates_of_exec h).keep (P := fun u => u.f = s.f) (fun hu hs => (hu.f_eq hf).trans hs) rfl

theorem exec_pc (hpc : transfersControl i = false) : t.pc = s.pc + BitVec.ofNat 16 i.operandLength :=
  (updates_of_exec h).keep (P := fun u => u.pc = s.pc + BitVec.ofNat 16 i.operandLength)
    (fun hu hs => (hu.pc_eq hpc).trans hs) rfl

theorem exec_runsOrFaults (hrun : s.Running) (hc : s.config.wf = true) : RunsOrFaults i t := by
  have hkeep := (updates_of_exec h).keep (P := fun u => u.config = s.config ∧ RunsOrFaults i u)
    (fun hu ⟨hcu, hs⟩ => ⟨hu.config_eq.trans hcu, hu.runsOrFaults (hcu ▸ hc) hs⟩) ⟨rfl, .inl hrun⟩
  exact hkeep.2

end

/-- Settles O18: no update of an instruction outside the list writes SP. -/
theorem onlyListedInstructionsWriteSp : Obligations.OnlyListedInstructionsWriteSp := fun _ _ _ hsp h => exec_sp h hsp

/-- Settles O19: no update of an instruction outside the table writes F. -/
theorem onlyListedInstructionsWriteFlags : Obligations.OnlyListedInstructionsWriteFlags := fun _ _ _ hf h => exec_f h hf

/-- Settles O12: `pc` moves past the operand bytes first, and no update after that writes it. -/
theorem sequentialInstructionsMovePcPastOperands : Obligations.SequentialInstructionsMovePcPastOperands :=
  fun _ _ _ hpc h _ => exec_pc h hpc

/-! ### One step -/

theorem step_of_decode_instr {s : State} {i : Instr} {rest : List Byte} (hrun : s.Running)
    (h : decode s.config s.window = .instr i rest) : step s = exec i (s.advancePc i.opcodeLength) := by
  simp only [step, hrun, fetch_of_decode_instr h]

/-- Settles O5: the fetch finds what the decoder finds, with `pc` past its opcode bytes. -/
theorem stepRunsTheDecodedInstruction : Obligations.StepRunsTheDecodedInstruction :=
  fun _ _ _ hrun h => step_of_decode_instr hrun h

/-- Settles O6: the fetch takes the fault at the first byte after the readable ones. -/
theorem truncatedInstructionFaultsAtTheMissingByte : Obligations.TruncatedInstructionFaultsAtTheMissingByte := by
  intro s hrun h
  obtain ⟨m, hfetch⟩ := fetch_of_decode_truncated h
  exact ⟨_, step_of_fetch_raised hrun hfetch, rfl⟩

/-- All a running step can do: the fetch takes DecodeError or UnmappedAddressError, with `pc` moved and nothing else changed;
or the instruction the bytes at `pc` decode to is executed past its opcode bytes (R100). -/
theorem step_cases {s : State} (hrun : s.Running) :
    (∃ m r, step s = .next ((s.advancePc m).raise r) ∧ ∀ pc offset, r ≠ .invalidJumpError pc offset) ∨
    ∃ i rest, decode s.config s.window = .instr i rest ∧ step s = exec i (s.advancePc i.opcodeLength) := by
  cases h : decode s.config s.window with
  | instr i rest => exact .inr ⟨i, rest, rfl, step_of_decode_instr hrun h⟩
  | absent key =>
    obtain ⟨m, hfetch⟩ := fetch_of_decode_absent h
    exact .inl ⟨m, _, step_of_fetch_raised hrun hfetch, nofun⟩
  | truncated =>
    obtain ⟨m, hfetch⟩ := fetch_of_decode_truncated h
    exact .inl ⟨m, _, step_of_fetch_raised hrun hfetch, nofun⟩

/-- A halted engine answers no next state (R240). -/
theorem running_of_step {s t : State} (h : step s = .next t) : s.Running := by
  cases he : s.engine with
  | running => exact he
  | haltedOnError r => simp [step, he] at h

/-- What the fetch's faults and the instructions keep, every step keeps; `P` is about the state before and the one after. -/
theorem step_keeps {P : State → State → Prop} (hraise : ∀ s m r, P s ((s.advancePc m).raise r))
    (hexec : ∀ s m i t, exec i (s.advancePc m) = .next t → P s t) {s t : State} (h : step s = .next t) : P s t := by
  rcases step_cases (running_of_step h) with ⟨m, r, hstep, -⟩ | ⟨i, rest, -, hstep⟩
  · rw [h] at hstep
    cases hstep
    exact hraise s m r
  · exact hexec s _ i t (hstep.symm.trans h)

/-- Settles O13: the fetch's faults keep the invariant, and so does every update of an instruction. -/
theorem stepKeepsTheInvariant : Obligations.StepKeepsTheInvariant := fun _ _ hinv h =>
  step_keeps (P := fun s t => s.Inv → t.Inv) (fun _ m r hs => (hs.advancePc m).raise r)
    (fun _ m _ _ hexec hs => exec_inv hexec (hs.advancePc m)) h hinv

/-- Settles O15: no update writes a parameter, and none stores into ROM. -/
theorem stepKeepsRomAndParameters : Obligations.StepKeepsRomAndParameters := fun _ _ h =>
  step_keeps (P := KeepsRom) (fun _ _ _ => ⟨rfl, fun addr _ => readByte_congr rfl rfl addr⟩)
    (fun s m _ _ hexec => (keepsRom_advancePc s m).trans (exec_keepsRom hexec)) h

/-- Settles O7: a fault of the fetch and every arm of `exec` is a next state. -/
theorem runningStepAnswersNext : Obligations.RunningStepAnswersNext := by
  intro s hrun
  have hnext : ∃ t, step s = .next t := by
    rcases step_cases hrun with ⟨m, r, hstep, -⟩ | ⟨i, rest, -, hstep⟩
    · exact ⟨_, hstep⟩
    · obtain ⟨t, hexec⟩ := exec_answers_next (s.advancePc i.opcodeLength) i
      exact ⟨t, hstep.trans hexec⟩
  obtain ⟨t, hstep⟩ := hnext
  refine ⟨t, hstep, ?_⟩
  cases he : t.engine with
  | running => exact .inl he
  | haltedOnError r => exact .inr ⟨r, rfl⟩

end Sys2Proof.Proofs
end

section
/-! The faults an instruction raises, and the address the sequencer goes on at: the readable bytes at `pc` bound both
(R51). -/

namespace Sys2Proof.Proofs

open Sys2Proof Sys2Proof.Machine

/-! ### The faults of an instruction -/

/-- All a JR does to the engine: nothing, or InvalidJumpError with the `pc` after its operand and an offset that leaves the
range (R190, R244). -/
theorem exec_jr_engine_cases {cc : Option Cond} {e8 : Byte} {s t : State} (h : exec (Instr.jr cc e8) s = .next t) :
    t.engine = s.engine ∨
      (t.engine = .haltedOnError (.invalidJumpError (s.pc + 1) (signedValue e8)) ∧
        (((s.pc + 1).toNat : Int) + signedValue e8 < 0 ∨ ((s.pc + 1).toNat : Int) + signedValue e8 > 0xFFFF)) := by
  obtain ⟨-, -, hjr⟩ := relativeJump cc e8
  obtain ⟨htaken, hfault, hnot⟩ := hjr s
  by_cases hcc : CondHolds s cc
  · by_cases hout : ((s.pc + 1).toNat : Int) + signedValue e8 < 0 ∨ ((s.pc + 1).toNat : Int) + signedValue e8 > 0xFFFF
    · have hexec := h.symm.trans (hfault hcc hout)
      cases hexec
      exact .inr ⟨rfl, hout⟩
    · obtain ⟨t', hexec, -, -, -, hframe⟩ := htaken hcc (by omega) (by omega)
      cases h.symm.trans hexec
      exact .inl hframe.engine
  · obtain ⟨t', hexec, hframe⟩ := hnot hcc
    cases h.symm.trans hexec
    exact .inl hframe.engine

/-- Settles O9: the updates take UnmappedAddressError alone, but for the jump of a JR. -/
theorem instructionsRaiseOnlyMemoryAndJumpErrors : Obligations.InstructionsRaiseOnlyMemoryAndJumpErrors := by
  intro i s t hrun hc h
  rcases exec_runsOrFaults h hrun hc with hr | hunmapped | ⟨cc, e8, rfl⟩
  · exact .inl hr
  · exact .inr (.inl hunmapped)
  · rcases exec_jr_engine_cases h with he | ⟨he, -⟩
    · exact .inl (he.trans hrun)
    · exact .inr (.inr ⟨cc, e8, _, rfl, he⟩)

/-! ### The readable bytes at `pc` -/

/-- The bytes that can be read one after the other end at 0xFF80 at the latest: no address of them wraps (R51). -/
theorem toNat_add_length_bytesFrom_le {s : State} (hc : s.config.wf = true) (addr : Word) (n : Nat)
    (hne : s.bytesFrom addr n ≠ []) : addr.toNat + (s.bytesFrom addr n).length ≤ 0xFF80 := by
  induction n generalizing addr with
  | zero => exact absurd rfl hne
  | succ n ih =>
    rw [bytesFrom_succ] at hne ⊢
    cases hread : s.readByte addr with
    | none => simp [hread] at hne
    | some v =>
      have hmapped : addr.toNat < 0xFF80 := by
        by_contra hhigh
        rw [(readByte_eq_none_iff s addr).2 ((not_readable_iff hc addr).2 (by omega))] at hread
        cases hread
      simp only [List.length_cons]
      by_cases hnil : s.bytesFrom (addr + 1) n = []
      · rw [hnil, List.length_nil]
        omega
      · have := ih (addr + 1) hnil
        have hnext : (addr + 1).toNat = addr.toNat + 1 := by bv_omega
        omega

theorem length_eq_length_encode (i : Instr) : i.length = (encode i).length := List.length_append.symm

/-- Past an instruction that decodes at `pc` the address is at most 0xFF80. -/
theorem pc_add_length_le {s : State} (hc : s.config.wf = true) {i : Instr} {rest : List Byte}
    (h : decode s.config s.window = .instr i rest) : s.pc.toNat + i.length ≤ 0xFF80 := by
  obtain ⟨-, hwindow⟩ := decodedBytesAreTheEncoding _ _ _ _ h
  have hne : s.window ≠ [] := by
    intro hnil
    rw [hnil] at h
    cases h
  have hlength : s.window.length = i.length + rest.length := by
    rw [hwindow, List.length_append, length_eq_length_encode]
  calc s.pc.toNat + i.length
    _ ≤ s.pc.toNat + s.window.length := by omega
    _ ≤ 0xFF80 := toNat_add_length_bytesFrom_le hc s.pc 3 hne

theorem opcodeLength_jr (cc : Option Cond) (e8 : Byte) : (Instr.jr cc e8).opcodeLength = 1 := by
  have hbytes : (Instr.jr cc e8).opcodeBytes = [jrOpcode cc] := by
    rcases cc with _ | _ | _ | _ | _ <;> exact opcodeBytes_plain rfl
  rw [Instr.opcodeLength, hbytes]
  rfl

theorem length_jr (cc : Option Cond) (e8 : Byte) : (Instr.jr cc e8).length = 2 := by
  rw [length_eq_length_encode, encode_jr]
  rfl

/-- Settles O11: the fetch and the instruction move `pc` by its length, inside the readable bytes. -/
theorem sequentialPcNeverWraps : Obligations.SequentialPcNeverWraps := by
  intro s t i rest hrun hc hdecode hpc hstep _
  have hbound := pc_add_length_le hc hdecode
  have hmoved : t.pc = s.pc + BitVec.ofNat 16 i.opcodeLength + BitVec.ofNat 16 i.operandLength :=
    exec_pc ((step_of_decode_instr hrun hdecode).symm.trans hstep) hpc
  have hsum : t.pc.toNat = s.pc.toNat + i.length := by
    rw [hmoved, Instr.length]
    rw [Instr.length] at hbound
    simp only [BitVec.toNat_add, BitVec.toNat_ofNat]
    omega
  exact ⟨hsum, hsum ▸ hbound⟩

/-- Settles O10: the JR lies in the readable bytes, so no offset takes it above 0xFFFF. -/
theorem invalidJumpsAreBelowZero : Obligations.InvalidJumpsAreBelowZero := by
  intro s t p offset hrun hc hstep hengine
  rcases step_cases hrun with ⟨m, r, hraise, hr⟩ | ⟨i, rest, hdecode, hexec⟩
  · cases hstep.symm.trans hraise
    exact absurd (Engine.haltedOnError.inj hengine) (hr p offset)
  · have hbound := pc_add_length_le hc hdecode
    have hnext := hexec.symm.trans hstep
    rcases exec_runsOrFaults hnext hrun hc with hrun' | ⟨addr, hunmapped, -⟩ | ⟨cc, e8, rfl⟩
    · cases hengine.symm.trans hrun'
    · cases hengine.symm.trans hunmapped
    · rw [opcodeLength_jr] at hnext
      rw [length_jr] at hbound
      rcases exec_jr_engine_cases hnext with hsame | ⟨hinvalid, hout⟩
      · cases hengine.symm.trans (hsame.trans hrun)
      · cases hengine.symm.trans hinvalid
        have hp : (s.pc + 1#16 + 1).toNat = s.pc.toNat + 2 := by bv_omega
        have he8 : signedValue e8 ≤ 127 := by
          unfold signedValue
          split <;> omega
        simp only [State.advancePc_pc] at hout ⊢
        omega

end Sys2Proof.Proofs
end

section
/-! The rows that modify one operand or A by the rules of D3, D5 and R215 to R222: the rotates and shifts, ADD, SUB, AND and
OR. -/

namespace Sys2Proof.Proofs

open Sys2Proof Sys2Proof.Machine
open Sys2Proof.Laws

/-! ### Rotates and shifts of an operand -/

theorem operandValue_writeZNHC (s : State) (o : Operand8) (z n h c : Bool) :
    operandValue (s.writeZNHC z n h c) o = operandValue s o := by
  cases o with
  | reg r => exact congrArg some (s.get8_writeZNHC r z n h c)
  | indHl => exact readByte_congr rfl rfl _

/-- An instruction that rotates or shifts its operand meets `ModifiesOperand`; `res` may take the old Carry in, and `resNat`
and `carry` say the result and the bit that leaves as the statements write them (R233). -/
theorem modifiesOperand_of_rotateOperand {i : Instr} {o : Operand8} {res : State → Byte → Byte} {out : Byte → Bool}
    {resNat : State → Byte → Nat} {carry : Byte → Prop}
    (hexec : ∀ s, exec i s = .next (Machine.rotateOperand (res s) out o s))
    (hres : ∀ s v, (res s v).toNat = resNat s v) (hout : ∀ v, out v = true ↔ carry v) :
    ModifiesOperand i o resNat False (fun _ _ => False) (fun _ v => carry v) := by
  intro s hinv
  obtain ⟨hwritten, hfault⟩ :=
    modifyOperand_spec hinv o (res s) (fun v t => t.writeZNHC (zeroOf (res s v)) false false (out v))
  constructor
  · intro v hv hs
    obtain ⟨t, hmodify, hvalue, hf, hsp, hpc, hframe⟩ := hwritten v hv hs
    have hzero : zeroOf (res s v) = true ↔ resNat s v = 0 := by rw [zeroOf_iff, hres]
    have hclear : false = true ↔ False := iff_of_false Bool.false_ne_true not_false
    have hflags := (flagsAre_writeZNHC hf (zeroOf (res s v)) false false (out v)).congr hzero hclear hclear (hout v)
    exact ⟨_, res s v, (hexec s).trans (congrArg _ hmodify), (operandValue_writeZNHC t o _ _ _ _).trans hvalue, hres s v,
      hflags, hsp, hpc, by simpa using hframe.trans (frame_writeZNHC t _ _ _ _)⟩
  · intro hs
    exact halts_of_raise ((hexec s).trans (congrArg _ (hfault hs)))

/-- RL takes the Carry of the old flags in (R219). -/
theorem toNat_rotlThrough_cin (s : State) (v : Byte) :
    (rotlThrough s.cin v).toNat = 2 * v.toNat % 256 + (s.f.getLsbD 4).toNat := by
  rw [toNat_rotlThrough, cin_eq]

/-- RR takes the Carry of the old flags in (R221). -/
theorem toNat_rotrThrough_cin (s : State) (v : Byte) :
    (rotrThrough s.cin v).toNat = v.toNat / 2 + 128 * (s.f.getLsbD 4).toNat := by
  rw [toNat_rotrThrough, cin_eq]

/-- The encodings of the four rotates of an operand (R109). -/
theorem encode_rotates (o : Operand8) :
    encode (Instr.rlc o) = [0xCB, BitVec.ofNat 8 (operandCode o)] ∧
    encode (Instr.rrc o) = [0xCB, BitVec.ofNat 8 (0x08 + operandCode o)] ∧
    encode (Instr.rl o) = [0xCB, BitVec.ofNat 8 (0x10 + operandCode o)] ∧
    encode (Instr.rr o) = [0xCB, BitVec.ofNat 8 (0x18 + operandCode o)] := by
  rcases o with (_ | _ | _ | _ | _ | _ | _) | _ <;> exact ⟨rfl, rfl, rfl, rfl⟩

/-- The encodings of the three shifts (R109). -/
theorem encode_shifts (o : Operand8) :
    encode (Instr.sla o) = [0xCB, BitVec.ofNat 8 (0x20 + operandCode o)] ∧
    encode (Instr.sra o) = [0xCB, BitVec.ofNat 8 (0x28 + operandCode o)] ∧
    encode (Instr.srl o) = [0xCB, BitVec.ofNat 8 (0x38 + operandCode o)] := by
  rcases o with (_ | _ | _ | _ | _ | _ | _) | _ <;> exact ⟨rfl, rfl, rfl⟩

/-- Settles O46: each is one `rotateOperand`, RL and RR with the old Carry. -/
theorem rotateOperand : Obligations.RotateOperand := by
  intro o
  obtain ⟨hrlc, hrrc, hrl, hrr⟩ := encode_rotates o
  exact ⟨⟨hrlc, modifiesOperand_of_rotateOperand (exec_rlc · o) (fun _ => toNat_rotl) bit7_iff⟩,
    ⟨hrrc, modifiesOperand_of_rotateOperand (exec_rrc · o) (fun _ => toNat_rotr) bit0_iff⟩,
    ⟨hrl, modifiesOperand_of_rotateOperand (exec_rl · o) toNat_rotlThrough_cin bit7_iff⟩,
    ⟨hrr, modifiesOperand_of_rotateOperand (exec_rr · o) toNat_rotrThrough_cin bit0_iff⟩⟩

/-- Settles O47: each is one `rotateOperand` that takes nothing from the flags. -/
theorem shiftOperand : Obligations.ShiftOperand := by
  intro o
  obtain ⟨hsla, hsra, hsrl⟩ := encode_shifts o
  exact ⟨⟨hsla, modifiesOperand_of_rotateOperand (exec_sla · o) (fun _ => toNat_shiftLeft) bit7_iff⟩,
    ⟨hsra, modifiesOperand_of_rotateOperand (exec_sra · o) (fun _ => toNat_shiftRightArith) bit0_iff⟩,
    ⟨hsrl, modifiesOperand_of_rotateOperand (exec_srl · o) (fun _ => toNat_shiftRightLogic) bit0_iff⟩⟩

/-! ### Rotates of A -/

/-- An instruction that runs `rotateA` makes A the result and takes Carry from the bit that leaves, with Z from the result
where the parameter of U6 says so (R223 to R226). -/
theorem writesA_of_rotateA {i : Instr} {s : State} {res : Byte → Byte} {out : Byte → Bool} {resNat : Nat} {carry : Prop}
    (hexec : exec i s = .next (rotateA res out s)) (hres : (res s.a).toNat = resNat) (hout : out s.a = true ↔ carry) :
    WritesA i s 0 resNat (s.config.accRotateZFromResult = true ∧ resNat = 0) False False carry := by
  have hzero : (s.config.accRotateZFromResult && zeroOf (res s.a)) = true ↔
      s.config.accRotateZFromResult = true ∧ resNat = 0 := by
    rw [Bool.and_eq_true, zeroOf_iff, hres]
  have hclear : false = true ↔ False := iff_of_false Bool.false_ne_true not_false
  exact writesA_of_exec (by rw [hexec, advancePc_zero]; rfl) hres hzero hclear hclear hout

/-- Settles O48: each is one `rotateA`. -/
theorem rotateAccumulator : Obligations.RotateAccumulator :=
  ⟨rfl, rfl, rfl, rfl, fun s => ⟨writesA_of_rotateA rfl (toNat_rotl _) (bit7_iff _),
    writesA_of_rotateA rfl (toNat_rotr _) (bit0_iff _),
    writesA_of_rotateA rfl (toNat_rotlThrough_cin s _) (bit7_iff _),
    writesA_of_rotateA rfl (toNat_rotrThrough_cin s _) (bit0_iff _)⟩⟩

/-! ### ADD, SUB, AND and OR into A -/

/-- An instruction that moves past its operands and runs `addA` adds `v` to A modulo 256 (R157). -/
theorem writesA_of_addA {i : Instr} {s : State} {operands : Nat} {v : Byte}
    (hexec : exec i s = .next (addA v (s.advancePc operands))) :
    WritesA i s operands ((s.a.toNat + v.toNat) % 256) ((s.a.toNat + v.toNat) % 256 = 0) False
      (s.a.toNat % 16 + v.toNat % 16 > 15) (s.a.toNat + v.toNat > 255) := by
  have hres : (s.a + v).toNat = (s.a.toNat + v.toNat) % 256 := BitVec.toNat_add s.a v
  have hzero : zeroOf (s.a + v) = true ↔ (s.a.toNat + v.toNat) % 256 = 0 := by rw [zeroOf_iff, hres]
  exact writesA_of_exec hexec hres hzero (iff_of_false Bool.false_ne_true not_false) (halfOfAdd_iff s.a v) decide_eq_true_iff

/-- An instruction that moves past its operands and runs `subA` subtracts `v` from A modulo 256, with the flags of CP
(R160). -/
theorem writesA_of_subA {i : Instr} {s : State} {operands : Nat} {v : Byte}
    (hexec : exec i s = .next (subA v (s.advancePc operands))) :
    WritesA i s operands ((s.a.toNat + 256 - v.toNat) % 256) (v = s.a) True (v.toNat % 16 > s.a.toNat % 16)
      (v.toNat > s.a.toNat) := by
  have hres : (s.a - v).toNat = (s.a.toNat + 256 - v.toNat) % 256 := by bv_omega
  have hzero : zeroOf (s.a - v) = true ↔ v = s.a := by
    rw [zeroOf_iff]
    constructor <;> intro h <;> bv_omega
  exact writesA_of_exec hexec hres hzero (iff_of_true rfl trivial) (halfOfSub_iff s.a v) decide_eq_true_iff

/-- An instruction that moves past its operands and runs `andA` makes A its conjunction with `v` and sets Half-Carry
(R178). -/
theorem writesA_of_andA {i : Instr} {s : State} {operands : Nat} {v : Byte}
    (hexec : exec i s = .next (andA v (s.advancePc operands))) :
    WritesA i s operands (s.a.toNat &&& v.toNat) (s.a.toNat &&& v.toNat = 0) False True False :=
  writesA_of_logicA hexec (BitVec.toNat_and s.a v) (iff_of_true rfl trivial)

/-- An instruction that moves past its operands and runs `orA` makes A its disjunction with `v` (R181). -/
theorem writesA_of_orA {i : Instr} {s : State} {operands : Nat} {v : Byte}
    (hexec : exec i s = .next (orA v (s.advancePc operands))) :
    WritesA i s operands (s.a.toNat ||| v.toNat) (s.a.toNat ||| v.toNat = 0) False False False :=
  writesA_of_logicA hexec (BitVec.toNat_or s.a v) (iff_of_false Bool.false_ne_true not_false)

/-- An instruction that reads its operand and goes on with `op` runs it on the operand's value, or faults at HL
(R10, R242). -/
theorem exec_of_readOperandThen {i : Instr} {s : State} {o : Operand8} {op : Byte → State → State}
    (hexec : exec i s = .next (readOperandThen o s fun v => op v s)) :
    (∀ v, operandValue s o = some v → exec i s = .next (op v (s.advancePc 0))) ∧
    (operandValue s o = none → Halts i s 0 (.unmappedAddressError (hlAddress s))) := by
  constructor
  · intro v hv
    rw [advancePc_zero, hexec, readOperandThen_some hv]
  · intro hnone
    exact halts_of_raise (hexec.trans (congrArg _ (readOperandThen_none hnone _)))

/-- The encodings of ADD, SUB, AND and OR with an operand (R106). -/
theorem encode_aluOperand (o : Operand8) :
    encode (Instr.add o) = [BitVec.ofNat 8 (0x80 + operandCode o)] ∧
    encode (Instr.sub o) = [BitVec.ofNat 8 (0x90 + operandCode o)] ∧
    encode (Instr.and8 o) = [BitVec.ofNat 8 (0xA0 + operandCode o)] ∧
    encode (Instr.or8 o) = [BitVec.ofNat 8 (0xB0 + operandCode o)] := by
  rcases o with (_ | _ | _ | _ | _ | _ | _) | _ <;> exact ⟨rfl, rfl, rfl, rfl⟩

/-- Settles O39: where the operand reads, ADD is one `addA`; the immediate form runs it past its operand. -/
theorem addToA : Obligations.AddToA := by
  refine ⟨fun o => ?_, fun v =>
    ⟨encode_plain rfl, missingOperandHalts_of_lookup (Lookup.addAD8 v), fun s => writesA_of_addA rfl⟩⟩
  obtain ⟨hencode, -⟩ := encode_aluOperand o
  refine ⟨hencode, fun s => ?_⟩
  obtain ⟨hread, hunmapped⟩ := exec_of_readOperandThen (exec_add s o)
  exact ⟨fun v hv => writesA_of_addA (hread v hv), hunmapped⟩

/-- Settles O40: where the operand reads, SUB is one `subA`; the immediate form runs it past its operand. -/
theorem subtractFromA : Obligations.SubtractFromA := by
  refine ⟨fun o => ?_, fun v =>
    ⟨encode_plain rfl, missingOperandHalts_of_lookup (Lookup.subD8 v), fun s => writesA_of_subA rfl⟩⟩
  obtain ⟨-, hencode, -⟩ := encode_aluOperand o
  refine ⟨hencode, fun s => ?_⟩
  obtain ⟨hread, hunmapped⟩ := exec_of_readOperandThen (exec_sub s o)
  exact ⟨fun v hv => writesA_of_subA (hread v hv), hunmapped⟩

/-- Settles O43: where the operand reads, AND is one `andA`; the immediate form runs it past its operand. -/
theorem andIntoA : Obligations.AndIntoA := by
  refine ⟨fun o => ?_, fun v =>
    ⟨encode_plain rfl, missingOperandHalts_of_lookup (Lookup.andD8 v), fun s => writesA_of_andA rfl⟩⟩
  obtain ⟨-, -, hencode, -⟩ := encode_aluOperand o
  refine ⟨hencode, fun s => ?_⟩
  obtain ⟨hread, hunmapped⟩ := exec_of_readOperandThen (exec_and8 s o)
  exact ⟨fun v hv => writesA_of_andA (hread v hv), hunmapped⟩

/-- Settles O44: where the operand reads, OR is one `orA`; the immediate form runs it past its operand. -/
theorem orIntoA : Obligations.OrIntoA := by
  refine ⟨fun o => ?_, fun v =>
    ⟨encode_plain rfl, missingOperandHalts_of_lookup (Lookup.orD8 v), fun s => writesA_of_orA rfl⟩⟩
  obtain ⟨-, -, -, hencode⟩ := encode_aluOperand o
  refine ⟨hencode, fun s => ?_⟩
  obtain ⟨hread, hunmapped⟩ := exec_of_readOperandThen (exec_or8 s o)
  exact ⟨fun v hv => writesA_of_orA (hread v hv), hunmapped⟩

/-! ### INC and then DEC -/

/-- A frame keeps HL when H and L are not written. -/
theorem hlAddress_eq_of_frame {s t : State} {regs : List Reg8} {stored : List Word} (h : Frame s t regs stored)
    (hh : .h ∉ regs) (hl : .l ∉ regs) : hlAddress t = hlAddress s :=
  congrArg₂ wordOf (h.regs .h hh) (h.regs .l hl)

/-- Under the frame of an operand, (HL) names the same byte. -/
theorem operandCells_eq_of_frame {s t : State} {o : Operand8} (h : Frame s t (operandRegs o) (operandCells s o)) :
    operandCells t o = operandCells s o ∧ (OperandStorable s o → OperandStorable t o) := by
  cases o with
  | reg r => exact ⟨rfl, id⟩
  | indHl =>
    have haddr : hlAddress t = hlAddress s := hlAddress_eq_of_frame h nofun nofun
    exact ⟨congrArg (fun addr => [addr]) haddr, fun hs => by rw [OperandStorable, haddr]; exact hs⟩

/-- Under the frame of an operand that holds its old value nothing has changed. -/
theorem frame_of_operandValue {s t : State} {o : Operand8} (h : Frame s t (operandRegs o) (operandCells s o))
    (hvalue : operandValue t o = operandValue s o) : Frame s t [] [] where
  regs r _ := by
    cases o with
    | reg q =>
      by_cases hr : r = q
      · subst hr
        exact Option.some.inj hvalue
      · exact h.regs r (by simpa [operandRegs] using hr)
    | indHl => exact h.regs r nofun
  memory addr _ := by
    cases o with
    | reg q => exact h.memory addr nofun
    | indHl =>
      by_cases ha : addr = hlAddress s
      · rw [operandValue, operandValue, hlAddress_eq_of_frame h nofun nofun] at hvalue
        rw [ha]
        exact hvalue
      · exact h.memory addr (by simpa [operandCells] using ha)
  engine := h.engine
  config := h.config

/-- Settles O37: DEC undoes what INC made of the operand, and its flags are those of the old value. -/
theorem incrementThenDecrementRestores : Obligations.IncrementThenDecrementRestores := by
  intro o s v hinv hv hs
  obtain ⟨-, hincrement⟩ := incrementOperand o
  obtain ⟨hwritten, -⟩ := hincrement s hinv
  obtain ⟨t, w, hinc, hw, hwNat, hflags, hsp, hpc, hframe⟩ := hwritten v hv hs
  obtain ⟨hcells, hstorable⟩ := operandCells_eq_of_frame hframe
  obtain ⟨-, hdecrement⟩ := decrementOperand o
  obtain ⟨hwritten', -⟩ := hdecrement t (exec_inv hinc hinv)
  obtain ⟨u, x, hdec, hx, hxNat, hflags', hsp', hpc', hframe'⟩ := hwritten' w hw (hstorable hs)
  replace hwNat : w.toNat = (v.toNat + 1) % 256 := hwNat
  have hback : (w.toNat + 255) % 256 = v.toNat := by omega
  obtain rfl : x = v := BitVec.eq_of_toNat_eq (hxNat.trans hback)
  have hzero : (w.toNat + 255) % 256 = 0 ↔ x.toNat = 0 := by rw [hback]
  have hhalf : w.toNat % 16 = 0 ↔ x.toNat % 16 = 15 := by omega
  have hboth : Frame s u (operandRegs o) (operandCells s o) :=
    (hframe.trans (hcells ▸ hframe')).mono (by simp) (by simp)
  have hrest : Frame s u [] [] := frame_of_operandValue hboth (hx.trans hv.symm)
  refine ⟨t, u, hinc, hdec, hx, ?_, ?_⟩
  · have hfinal := hflags'.congr hzero .rfl hhalf hflags.carry
    exact { hfinal with low := fun k hk => (hflags'.low k hk).trans (hflags.low k hk) }
  · exact { regs := hrest.regs, memory := hrest.memory, engine := hrest.engine, config := hrest.config, flags := rfl,
            sp := hsp'.trans hsp, pc := by simp [hpc', hpc] }

end Sys2Proof.Proofs
end

section
/-! A CALL and the RET that ends it (46_calls.md), and the values of SP a push needs (70_reset_and_hazards.md). -/

namespace Sys2Proof.Proofs

open Sys2Proof Sys2Proof.Machine

/-- Settles O53: RET pops the two bytes CALL has stored, and together they are the address after the CALL. -/
theorem returnResumesAfterTheCall : Obligations.ReturnResumesAfterTheCall := by
  intro cc cc' a16 s hinv hcc hp
  obtain ⟨-, -, hcall⟩ := callPushesTheReturnAddress cc a16
  obtain ⟨hpushes, -⟩ := hcall s hinv
  obtain ⟨t, hexec, hspNat, hlow, hhigh, -⟩ := hpushes hcc hp
  have hsp : t.sp = s.sp - 2 := by unfold Pushable at hp; bv_omega
  have hnext : t.sp + 1 = s.sp - 1 := by bv_omega
  refine ⟨t, hexec, fun t' hsp' hlow' hhigh' hcc' => ?_⟩
  obtain ⟨-, hret⟩ := returnPopsPc cc'
  obtain ⟨hpops, -⟩ := hret t'
  have hlo : t'.readByte t'.sp = some ((s.pc + 2).extractLsb' 0 8) := by rw [hsp', hlow', hsp]; exact hlow
  have hhi : t'.readByte (t'.sp + 1) = some ((s.pc + 2).extractLsb' 8 8) := by rw [hsp', hhigh', hnext]; exact hhigh
  obtain ⟨u, hexec', hpc, hspu, -⟩ := hpops _ _ hcc' hlo hhi
  have hback : u.sp = s.sp := by rw [hsp', hsp] at hspu; bv_omega
  exact ⟨u, hexec', hpc.trans (wordOf_hiByte_loByte (s.pc + 2)), hback⟩

/-- SP lets a push succeed exactly when both stack bytes take a store (R284). -/
theorem pushable_iff (sp : Word) : Pushable sp ↔ Storable (sp - 2) ∧ Storable (sp - 1) := by
  simp only [Pushable, Storable]
  constructor
  · intro h
    constructor <;> bv_omega
  · rintro ⟨hlow, hhigh⟩
    bv_omega

/-- Settles O57: a push runs on exactly when both its bytes are stored; at SP = 0 its first byte is 0xFFFE. -/
theorem pushNeedsAStackInVramOrIo : Obligations.PushNeedsAStackInVramOrIo := by
  intro p s hc hrun
  refine ⟨_, exec_push s p, ?_⟩
  have htop : ¬ Storable ((0 : Word) - 2) := by decide
  rcases pushThen_cases (s.getPair p) s (fun t => t) with ⟨t, u, ht, hu, e⟩ | ⟨hnone, e⟩ | ⟨t, ht, hnone, e⟩
  · obtain ⟨-, hlow, rfl⟩ := writeByte_eq_some ht
    obtain ⟨-, hhigh, rfl⟩ := writeByte_eq_some hu
    rw [pushPair, e]
    exact ⟨iff_of_true hrun ((pushable_iff s.sp).2 ⟨hlow, hhigh⟩), fun hzero => absurd (hzero ▸ hlow) htop⟩
  · have hlow : ¬ Storable (s.sp - 2) := (writeByte_eq_none_iff (s := s.setSp (s.sp - 2)) hc _ _).1 hnone
    rw [pushPair, e]
    exact ⟨iff_of_false nofun fun hp => hlow ((pushable_iff s.sp).1 hp).1, fun hzero => by rw [hzero]; rfl⟩
  · obtain ⟨-, hlow, -⟩ := writeByte_eq_some ht
    obtain ⟨-, -, -, -, hconfig, -⟩ := writeByte_fields ht
    have hct : t.config.wf = true := by rw [hconfig]; exact hc
    have hhigh : ¬ Storable (s.sp - 1) := (writeByte_eq_none_iff hct _ _).1 hnone
    rw [pushPair, e]
    exact ⟨iff_of_false nofun fun hp => hhigh ((pushable_iff s.sp).1 hp).2, fun hzero => absurd (hzero ▸ hlow) htop⟩

end Sys2Proof.Proofs
end

section
/-! Construction, the reset state and the reset input (10_state.md section 8), and the terminal state. -/

namespace Sys2Proof.Proofs

open Sys2Proof Sys2Proof.Machine

/-! ### The terminal state -/

theorem step_of_halted {s : State} {r : Fault} (h : s.engine = .haltedOnError r) : step s = .fault r := by
  simp only [step, h]

theorem run_of_step_fault {M : Host.Core} {s : M.State} {r : M.Fault} (h : M.step s = .fault r) (k : Nat) :
    M.run (k + 1) s = .fault r := by
  rw [Host.Core.run, h]

/-- Settles O8: the first step stops the run, and the reset input leaves the engine as it is. -/
theorem haltedEngineIsTerminal : Obligations.HaltedEngineIsTerminal :=
  fun s _ h k => ⟨run_of_step_fault (M := core) (step_of_halted h) k,
    run_of_step_fault (M := core) (step_of_halted (s := s.assertReset) h) k⟩

/-! ### Reset -/

theorem get8_assertReset (s : State) (r : Reg8) : s.assertReset.get8 r = 0 := by cases r <;> rfl

/-- A legal ROM has a byte at address 0 (R5, R51). -/
theorem readable_zero {cfg : Config} (hc : cfg.wf = true) : Readable cfg 0 := by
  simp only [Config.wf, Bool.and_eq_true, decide_eq_true_eq] at hc
  refine .inl ?_
  show 0 < cfg.romSize
  omega

/-- Settles O14: no byte is listed after reset, so every readable address reads the default. -/
theorem resetState : Obligations.ResetState :=
  ⟨⟨rfl, rfl, rfl, nofun⟩, rfl, fun r => by cases r <;> rfl, rfl, rfl, rfl, fun _ h => readByte_of_readable h⟩

/-- Settles O17: the ten registers are written and no other field, and the window then starts at address 0. -/
theorem resetInputRestartsAtAddressZero : Obligations.ResetInputRestartsAtAddressZero := by
  intro s hinv
  have hread : s.readByte 0 = some (Memory.read s.mem 0) := readByte_of_readable (readable_zero hinv.romSize)
  have hread' : s.assertReset.readByte 0 = some (Memory.read s.mem 0) := hread
  have hwindow : s.assertReset.window.head? = some (Memory.read s.mem 0) := by
    have hdef : s.assertReset.window = s.assertReset.bytesFrom 0 3 := rfl
    rw [hdef, bytesFrom_succ, hread']
    rfl
  exact ⟨get8_assertReset s, rfl, rfl, rfl, rfl, rfl, fun _ => rfl, _, hread, hwindow⟩

/-! ### Filling a region -/

/-- A filled range reads as its bytes, and every other address as before (R54, R56). -/
theorem read_fill {m : List Host.Cell} (h : Memory.wf m = true) (k : Nat) (bytes : List Byte) (j : Nat) :
    Memory.read (Memory.fill m k bytes) j =
      if k ≤ j ∧ j < k + bytes.length then bytes.getD (j - k) 0 else Memory.read m j := by
  induction bytes generalizing m k with
  | nil => rw [if_neg (by simp)]; rfl
  | cons v rest ih =>
    rw [Memory.fill, ih (Memory.wf_write h k v), List.length_cons]
    by_cases hjk : j = k
    · subst hjk
      rw [if_neg (by omega), if_pos (by omega), Memory.read_write_same h]
      simp
    · rw [Memory.read_write_other m hjk]
      by_cases hin : k + 1 ≤ j ∧ j < k + 1 + rest.length
      · have hsub : j - k = j - (k + 1) + 1 := by omega
        rw [if_pos hin, if_pos (by omega), hsub, List.getD_cons_succ]
      · rw [if_neg hin, if_neg (by omega)]

/-- Outside the filled range nothing changes. -/
theorem read_fill_of_outside {m : List Host.Cell} (h : Memory.wf m = true) {k j : Nat} {bytes : List Byte}
    (hj : j < k ∨ k + bytes.length ≤ j) : Memory.read (Memory.fill m k bytes) j = Memory.read m j := by
  rw [read_fill h, if_neg (by omega)]

/-- From the first filled address on, where the memory read the default, it reads the bytes and then the default. -/
theorem read_fill_of_le {m : List Host.Cell} (h : Memory.wf m = true) {k j : Nat} (hj : k ≤ j) (bytes : List Byte)
    (hdefault : Memory.read m j = 0) : Memory.read (Memory.fill m k bytes) j = bytes.getD (j - k) 0 := by
  rw [read_fill h]
  split
  · rfl
  · rw [hdefault, List.getD_eq_default _ _ (by omega)]

/-- The cells of a filled list are those it had and cells of the filled range. -/
theorem mem_fill {m : List Host.Cell} {k : Nat} {bytes : List Byte} {cell : Host.Cell} (h : cell ∈ Memory.fill m k bytes) :
    (k ≤ cell.1 ∧ cell.1 < k + bytes.length) ∨ cell ∈ m := by
  induction bytes generalizing m k with
  | nil => exact .inr h
  | cons v rest ih =>
    rw [List.length_cons]
    rcases ih h with hrange | hmem
    · exact .inl (by omega)
    · rcases Memory.mem_write hmem with rfl | hmem
      · exact .inl ⟨Nat.le_refl k, by simp⟩
      · exact .inr hmem

theorem getD_take (bytes : List Byte) {n j : Nat} (h : j < n) : (bytes.take n).getD j 0 = bytes.getD j 0 := by
  simp [List.getD_eq_getElem?_getD, h]

/-! ### Construction -/

/-- What construction puts in memory (R54, R56): the image from the first address of ROM, and the initial contents from the
first of VRAM and of IO, cut to their regions. -/
def constructedMemory (rom vram io : List Byte) : List Host.Cell :=
  Memory.fill (Memory.fill (Memory.fill [] 0 rom) 0x8000 (vram.take 0x2000)) 0xFF00 (io.take 0x80)

/-- The engine construction answers (R37). -/
def constructedState (cfg : Config) (rom vram io : List Byte) : State :=
  { State.reset with mem := constructedMemory rom vram io, config := cfg }

theorem construct_of_oversize {cfg : Config} {rom : List Byte} (h : cfg.romSize < rom.length) (vram io : List Byte) :
    construct cfg rom vram io = .error .romSizeError :=
  if_pos h

theorem construct_of_fits {cfg : Config} {rom : List Byte} (h : rom.length ≤ cfg.romSize) (vram io : List Byte) :
    construct cfg rom vram io = .ok (constructedState cfg rom vram io) :=
  if_neg (Nat.not_lt.2 h)

theorem wf_constructedMemory (rom vram io : List Byte) : Memory.wf (constructedMemory rom vram io) = true :=
  Memory.wf_fill (Memory.wf_fill (Memory.wf_fill rfl _ _) _ _) _ _

section
variable {rom : List Byte} (vram io : List Byte) {j : Nat}

theorem wf_filledRom (rom : List Byte) : Memory.wf (Memory.fill [] 0 rom) = true := Memory.wf_fill rfl 0 rom

theorem wf_filledVram (rom vram : List Byte) :
    Memory.wf (Memory.fill (Memory.fill [] 0 rom) 0x8000 (vram.take 0x2000)) = true :=
  Memory.wf_fill (wf_filledRom rom) _ _

theorem read_constructedMemory_rom (hj : j < 0x8000) :
    Memory.read (constructedMemory rom vram io) j = rom.getD j 0 :=
  calc Memory.read (constructedMemory rom vram io) j
    _ = Memory.read (Memory.fill (Memory.fill [] 0 rom) 0x8000 (vram.take 0x2000)) j :=
      read_fill_of_outside (wf_filledVram rom vram) (by omega)
    _ = Memory.read (Memory.fill [] 0 rom) j := read_fill_of_outside (wf_filledRom rom) (.inl hj)
    _ = rom.getD j 0 := read_fill_of_le rfl (Nat.zero_le j) rom rfl

theorem read_constructedMemory_vram (hrom : rom.length ≤ 0x8000) (hlow : 0x8000 ≤ j) (hhigh : j ≤ 0x9FFF) :
    Memory.read (constructedMemory rom vram io) j = vram.getD (j - 0x8000) 0 := by
  have hdefault : Memory.read (Memory.fill [] 0 rom) j = 0 := read_fill_of_outside rfl (.inr (by omega))
  calc Memory.read (constructedMemory rom vram io) j
    _ = Memory.read (Memory.fill (Memory.fill [] 0 rom) 0x8000 (vram.take 0x2000)) j :=
      read_fill_of_outside (wf_filledVram rom vram) (by omega)
    _ = (vram.take 0x2000).getD (j - 0x8000) 0 := read_fill_of_le (wf_filledRom rom) hlow _ hdefault
    _ = vram.getD (j - 0x8000) 0 := getD_take vram (by omega)

theorem read_constructedMemory_io (hrom : rom.length ≤ 0x8000) (hlow : 0xFF00 ≤ j) (hhigh : j ≤ 0xFF7F) :
    Memory.read (constructedMemory rom vram io) j = io.getD (j - 0xFF00) 0 := by
  have hvram : (vram.take 0x2000).length ≤ 0x2000 := List.length_take_le _ _
  have hdefault : Memory.read (Memory.fill (Memory.fill [] 0 rom) 0x8000 (vram.take 0x2000)) j = 0 :=
    (read_fill_of_outside (wf_filledRom rom) (.inr (by omega))).trans (read_fill_of_outside rfl (.inr (by omega)))
  calc Memory.read (constructedMemory rom vram io) j
    _ = (io.take 0x80).getD (j - 0xFF00) 0 := read_fill_of_le (wf_filledVram rom vram) hlow _ hdefault
    _ = io.getD (j - 0xFF00) 0 := getD_take io (by omega)

/-- Every cell of a constructed memory is a byte of one of the three regions (R53). -/
theorem mem_constructedMemory {cfg : Config} (hrom : rom.length ≤ cfg.romSize) (hsize : cfg.romSize ≤ 0x8000)
    {cell : Host.Cell} (h : cell ∈ constructedMemory rom vram io) :
    cell.1 < 0x10000 ∧ Readable cfg (BitVec.ofNat 16 cell.1) := by
  have hvramLength : (vram.take 0x2000).length ≤ 0x2000 := List.length_take_le _ _
  have hioLength : (io.take 0x80).length ≤ 0x80 := List.length_take_le _ _
  have hregion : cell.1 < cfg.romSize ∨ (0x8000 ≤ cell.1 ∧ cell.1 ≤ 0x9FFF) ∨ (0xFF00 ≤ cell.1 ∧ cell.1 ≤ 0xFF7F) := by
    rcases mem_fill h with hio | h
    · omega
    rcases mem_fill h with hvram | h
    · omega
    rcases mem_fill h with hrom' | h
    · omega
    · cases h
  have hbound : cell.1 < 0x10000 := by omega
  rw [Readable, Storable, BitVec.toNat_ofNat, Nat.mod_eq_of_lt hbound]
  exact ⟨hbound, hregion⟩

theorem inv_constructedState {cfg : Config} (hc : cfg.wf = true) (hrom : rom.length ≤ cfg.romSize)
    (hsize : cfg.romSize ≤ 0x8000) : (constructedState cfg rom vram io).Inv where
  romSize := hc
  lowNibble := (rfl : State.reset.f &&& 0x0F#8 = 0#8)
  canonical := wf_constructedMemory rom vram io
  inRegions _ hcell := mem_constructedMemory vram io hrom hsize hcell

end

/-- Settles O16: the three regions are filled one after the other, and no later fill reaches an earlier region. -/
theorem constructionBuildsTheEngine : Obligations.ConstructionBuildsTheEngine := by
  intro cfg rom vram io hc
  have hsize : cfg.romSize ≤ 0x8000 := by
    simp only [Config.wf, Bool.and_eq_true, decide_eq_true_eq] at hc
    exact hc.2
  refine ⟨fun hlarge => construct_of_oversize hlarge vram io, fun hrom => ?_⟩
  refine ⟨_, construct_of_fits hrom vram io, inv_constructedState vram io hc hrom hsize, rfl, rfl,
    fun r => by cases r <;> rfl, rfl, rfl, rfl, fun addr hlow => ?_, fun addr hlow hhigh => ?_, fun addr hlow hhigh => ?_⟩
  · have hread := readByte_of_readable (s := constructedState cfg rom vram io) (.inl hlow)
    exact hread.trans (congrArg some (read_constructedMemory_rom vram io (by omega)))
  · have hread := readByte_of_readable (s := constructedState cfg rom vram io) (.inr (.inl ⟨hlow, hhigh⟩))
    exact hread.trans (congrArg some (read_constructedMemory_vram vram io (hrom.trans hsize) hlow hhigh))
  · have hread := readByte_of_readable (s := constructedState cfg rom vram io) (.inr (.inr ⟨hlow, hhigh⟩))
    exact hread.trans (congrArg some (read_constructedMemory_io vram io (hrom.trans hsize) hlow hhigh))

end Sys2Proof.Proofs
end

section
/-! The debugger at its hook (60_exceptions.md section 8), and the step under either value of `DEBUG_ENABLED` (R266). -/

namespace Sys2Proof.Proofs

open Sys2Proof Sys2Proof.Machine

/-! ### The hook and the command loop -/

/-- No enabled breakpoint holds the address and step mode is off: free run (R262). -/
theorem hook_eq_none {d : Debugger} {pc : Word} (hstep : d.stepMode = false)
    (hbp : ∀ bp ∈ d.breakpoints, bp.enabled = true → bp.address ≠ pc) : d.hook pc = none := by
  have hfind : d.breakpoints.find? (fun bp => bp.enabled && bp.address == pc) = none := by
    simpa [List.find?_eq_none] using hbp
  simp [Debugger.hook, hfind, hstep]

/-- Step mode, and an enabled breakpoint at the address, enter the command loop (R262). -/
theorem hook_eq_some {d : Debugger} {pc : Word}
    (h : d.stepMode = true ∨ ∃ bp ∈ d.breakpoints, bp.enabled = true ∧ bp.address = pc) :
    ∃ p, d.hook pc = some p := by
  unfold Debugger.hook
  cases hfind : d.breakpoints.find? (fun bp => bp.enabled && bp.address == pc) with
  | some bp => exact ⟨_, rfl⟩
  | none =>
    rcases h with hstep | ⟨bp, hmem, hon, haddr⟩
    · exact ⟨.stepMode, by simp [hstep]⟩
    · have hmiss := List.find?_eq_none.1 hfind bp hmem
      simp [hon, haddr] at hmiss

theorem mark_ne_killed (d : Debugger) (id : Nat) (on : Bool) : (d.mark id on).1 ≠ .killed := by
  unfold Debugger.mark
  split <;> nofun

/-- No command but `kill` ends the run, whatever it reads (R263, log entry 28). -/
theorem command_eq_killed {d : Debugger} {s : State} {cmd : Command} (h : (d.command s cmd).1 = .killed) : cmd = .kill := by
  cases cmd with
  | kill => rfl
  | infoMem start size =>
    unfold Debugger.command at h
    cases hread : s.inspect start size with
    | ok bytes => simp [hread] at h
    | error addr => simp [hread] at h
  | enable id | disable id => exact absurd h (mark_ne_killed d id _)
  | _ => cases h

theorem session_eq_killed {commands : List Command} {d : Debugger} {s : State}
    (h : d.session commands s = .killed) : Command.kill ∈ commands := by
  induction commands generalizing d with
  | nil => cases h
  | cons cmd more ih =>
    unfold Debugger.session at h
    split at h
    · exact List.mem_cons_of_mem _ (ih h)
    · cases h
    · next hkilled => exact command_eq_killed hkilled ▸ List.mem_cons_self

/-! ### A hosted cycle -/

section
variable {commands : List Command} {d : Debugger} {s : State}

theorem hostedCycle_of_not_enabled (h : s.config.debugEnabled = false) : hostedCycle commands d s = .cycle d (step s) := by
  simp [hostedCycle, h]

theorem hostedCycle_of_hook_none (h : d.hook s.pc = none) : hostedCycle commands d s = .cycle d (step s) := by
  simp [hostedCycle, h]

/-- What becomes of a cycle whose command loop ended so (R262, R265). -/
def afterSession (s : State) : Control → Hosted
  | .waiting d => .paused d s
  | .resumed d => .cycle d (step s)
  | .killed => .killed

/-- Where the hook enters the command loop, the loop says what becomes of the cycle (R262). -/
theorem hostedCycle_of_hook_some (hrun : s.Running) (hon : s.config.debugEnabled = true) {p : Pause}
    (h : d.hook s.pc = some p) :
    hostedCycle commands d s = afterSession s (d.session commands s) := by
  rw [hostedCycle, if_pos ⟨hrun, hon⟩, h]
  cases d.session commands s <;> rfl

/-- All a hosted cycle can be: the step, or with `DEBUG_ENABLED` a pause in the same state or the end by `kill`. -/
theorem hostedCycle_cases (commands : List Command) (d : Debugger) (s : State) :
    (∃ d', hostedCycle commands d s = .cycle d' (step s)) ∨
    (∃ d', hostedCycle commands d s = .paused d' s ∧ s.config.debugEnabled = true) ∨
    (hostedCycle commands d s = .killed ∧ s.config.debugEnabled = true ∧ Command.kill ∈ commands) := by
  by_cases hboth : s.engine = .running ∧ s.config.debugEnabled = true
  · obtain ⟨hrun, hon⟩ := hboth
    cases hhook : d.hook s.pc with
    | none => exact .inl ⟨d, hostedCycle_of_hook_none hhook⟩
    | some p =>
      have hloop := hostedCycle_of_hook_some (commands := commands) hrun hon hhook
      cases hsession : d.session commands s with
      | waiting d' => exact .inr (.inl ⟨d', by rw [hloop, hsession, afterSession], hon⟩)
      | resumed d' => exact .inl ⟨d', by rw [hloop, hsession, afterSession]⟩
      | killed => exact .inr (.inr ⟨by rw [hloop, hsession, afterSession], hon, session_eq_killed hsession⟩)
  · exact .inl ⟨d, by rw [hostedCycle, if_neg hboth]⟩

end

/-- Settles O58: the cases of a hosted cycle, and the hook's two reasons to enter the command loop. -/
theorem debuggerOnlyDelaysOrEndsTheRun : Obligations.DebuggerOnlyDelaysOrEndsTheRun := by
  intro commands d s
  refine ⟨fun d' r h => ?_, fun d' s' h => ?_, fun h => ?_, hostedCycle_of_not_enabled,
    fun hstep hbp => hostedCycle_of_hook_none (hook_eq_none hstep hbp), fun hrun hon hpause => ?_⟩
  · rcases hostedCycle_cases commands d s with ⟨_, e⟩ | ⟨_, e, -⟩ | ⟨e, -⟩ <;> cases h.symm.trans e
    rfl
  · rcases hostedCycle_cases commands d s with ⟨_, e⟩ | ⟨_, e, hon⟩ | ⟨e, -⟩ <;> cases h.symm.trans e
    exact ⟨rfl, hon⟩
  · rcases hostedCycle_cases commands d s with ⟨_, e⟩ | ⟨_, e, -⟩ | ⟨-, hkill⟩
    · cases h.symm.trans e
    · cases h.symm.trans e
    · exact hkill
  · obtain ⟨p, hhook⟩ := hook_eq_some hpause
    exact ⟨hostedCycle_of_hook_some hrun hon hhook, hostedCycle_of_hook_some hrun hon hhook,
      hostedCycle_of_hook_some hrun hon hhook⟩

/-! ### No instruction reads `DEBUG_ENABLED` -/

section
variable (s : State) (on : Bool)

theorem setDebug_setPair (p : Pair) (v : Word) : (s.setDebug on).setPair p v = (s.setPair p v).setDebug on := by
  cases p <;> rfl

theorem setDebug_set8 (r : Reg8) (v : Byte) : (s.setDebug on).set8 r v = (s.set8 r v).setDebug on := by
  cases r <;> rfl

theorem setDebug_setWide (w : Wide) (v : Word) : (s.setDebug on).setWide w v = (s.setWide w v).setDebug on := by
  cases w <;> rfl

end

/-- An instruction does the same to the state with the other value of `DEBUG_ENABLED` (R266). -/
def IgnoresDebugSwitch (i : Instr) : Prop :=
  ∀ (s t : State) (on : Bool), exec i s = .next t → exec i (s.setDebug on) = .next (t.setDebug on)

theorem ignoresDebugSwitch_of_exec {i : Instr} {f : State → State} (hexec : ∀ s, exec i s = .next (f s))
    (h : ∀ s on, f (s.setDebug on) = (f s).setDebug on) : IgnoresDebugSwitch i := by
  intro s t on ht
  cases (hexec s).symm.trans ht
  rw [hexec, h]

section
variable (s : State) (on : Bool)

theorem loadReg_setDebug (r r' : Reg8) : loadReg r r' (s.setDebug on) = (loadReg r r' s).setDebug on := by
  rw [loadReg, setDebug_get8, setDebug_set8]
  rfl

theorem loadFrom_setDebug (r : Reg8) (addr : Word) : loadFrom r addr (s.setDebug on) = (loadFrom r addr s).setDebug on :=
  readByteThen_setDebug s on addr fun v => setDebug_set8 s on r v

theorem storeAt_setDebug (addr : Word) (v : Byte) : storeAt addr v (s.setDebug on) = (storeAt addr v s).setDebug on :=
  writeByteThen_setDebug s on addr v fun _ => rfl

theorem loadAuto_setDebug (move : Word → Word) : loadAuto move (s.setDebug on) = (loadAuto move s).setDebug on :=
  readByteThen_setDebug s on _ fun _ => rfl

theorem storeAuto_setDebug (move : Word → Word) : storeAuto move (s.setDebug on) = (storeAuto move s).setDebug on :=
  writeByteThen_setDebug s on _ _ fun _ => rfl

theorem relativeJump_setDebug (e8 : Byte) :
    Machine.relativeJump e8 (s.setDebug on) = (Machine.relativeJump e8 s).setDebug on := by
  unfold Machine.relativeJump
  rw [State.setDebug_pc]
  split <;> rfl

theorem jumpRelative_setDebug (taken : Bool) (e8 : Byte) :
    jumpRelative taken e8 (s.setDebug on) = (jumpRelative taken e8 s).setDebug on := by
  cases taken with
  | false => rfl
  | true => exact relativeJump_setDebug (s.advancePc 1) on e8

theorem jumpAbsolute_setDebug (taken : Bool) (a16 : Word) :
    jumpAbsolute taken a16 (s.setDebug on) = (jumpAbsolute taken a16 s).setDebug on := by
  cases taken <;> rfl

theorem callAbsolute_setDebug (taken : Bool) (a16 : Word) :
    callAbsolute taken a16 (s.setDebug on) = (callAbsolute taken a16 s).setDebug on := by
  cases taken with
  | false => rfl
  | true => exact pushThen_setDebug (s.advancePc 2) on _ fun _ => rfl

theorem returnPop_setDebug (taken : Bool) : returnPop taken (s.setDebug on) = (returnPop taken s).setDebug on := by
  cases taken with
  | false => rfl
  | true =>
    exact popThen_setDebug s on (rest := fun v t => t.setPc v) (rest' := fun v t => t.setPc v) fun _ _ => rfl

theorem writeZNHC_setDebug (z n h c : Bool) :
    (s.setDebug on).writeZNHC z n h c = (s.writeZNHC z n h c).setDebug on := rfl

theorem addA_setDebug (v : Byte) : addA v (s.setDebug on) = (addA v s).setDebug on :=
  writeZNHC_setDebug { s with a := s.a + v } on _ _ _ _

theorem subA_setDebug (v : Byte) : subA v (s.setDebug on) = (subA v s).setDebug on :=
  writeZNHC_setDebug { s with a := s.a - v } on _ _ _ _

theorem compareA_setDebug (v : Byte) : compareA v (s.setDebug on) = (compareA v s).setDebug on :=
  writeZNHC_setDebug s on _ _ _ _

theorem logicA_setDebug (res : Byte) (half : Bool) :
    logicA res half (s.setDebug on) = (logicA res half s).setDebug on :=
  writeZNHC_setDebug { s with a := res } on _ _ _ _

theorem rotateA_setDebug (res : Byte → Byte) (out : Byte → Bool) :
    rotateA res out (s.setDebug on) = (rotateA res out s).setDebug on :=
  writeZNHC_setDebug { s with a := res s.a } on _ _ _ _

theorem incOperand_setDebug (o : Operand8) : incOperand o (s.setDebug on) = (incOperand o s).setDebug on :=
  modifyOperand_setDebug s on _ o fun _ _ => rfl

theorem decOperand_setDebug (o : Operand8) : decOperand o (s.setDebug on) = (decOperand o s).setDebug on :=
  modifyOperand_setDebug s on _ o fun _ _ => rfl

theorem rotateOperand_setDebug (res : Byte → Byte) (out : Byte → Bool) (o : Operand8) :
    Machine.rotateOperand res out o (s.setDebug on) = (Machine.rotateOperand res out o s).setDebug on :=
  modifyOperand_setDebug s on res o fun _ t => writeZNHC_setDebug t on _ _ _ _

end

theorem ignoresDebugSwitch (i : Instr) : IgnoresDebugSwitch i := by
  induction i using Instr.byFamily with
  | ldReg r r' => exact ignoresDebugSwitch_of_exec (exec_ldReg · r r') fun s on => loadReg_setDebug s on r r'
  | ldFromHl r => exact ignoresDebugSwitch_of_exec (exec_ldFromHl · r) fun s on => loadFrom_setDebug s on r _
  | ldToHl r =>
    refine ignoresDebugSwitch_of_exec (exec_ldToHl · r) fun s on => ?_
    rw [setDebug_get8]
    exact storeAt_setDebug s on _ _
  | ldImm8 o v =>
    cases o with
    | reg r => exact ignoresDebugSwitch_of_exec (exec_ldImm8 · r v) fun s on => setDebug_set8 (s.advancePc 1) on r v
    | indHl => exact ignoresDebugSwitch_of_exec (fun _ => rfl) fun s on => storeAt_setDebug (s.advancePc 1) on _ v
  | ldWide w v => exact ignoresDebugSwitch_of_exec (exec_ldWide · w v) fun s on => setDebug_setWide (s.advancePc 2) on w v
  | ldAIndBc | ldAIndDe | ldAIndC =>
    exact ignoresDebugSwitch_of_exec (fun _ => rfl) fun s on => loadFrom_setDebug s on .a _
  | ldIndBcA | ldIndDeA | ldIndCA =>
    exact ignoresDebugSwitch_of_exec (fun _ => rfl) fun s on => storeAt_setDebug s on _ _
  | ldAIndHlInc | ldAIndHlDec => exact ignoresDebugSwitch_of_exec (fun _ => rfl) fun s on => loadAuto_setDebug s on _
  | ldIndHlIncA | ldIndHlDecA => exact ignoresDebugSwitch_of_exec (fun _ => rfl) fun s on => storeAuto_setDebug s on _
  | ldAIndA16 a16 => exact ignoresDebugSwitch_of_exec (fun _ => rfl) fun s on => loadFrom_setDebug (s.advancePc 2) on .a _
  | ldIndA16A a16 => exact ignoresDebugSwitch_of_exec (fun _ => rfl) fun s on => storeAt_setDebug (s.advancePc 2) on _ _
  | ldhAIndA8 a8 => exact ignoresDebugSwitch_of_exec (fun _ => rfl) fun s on => loadFrom_setDebug (s.advancePc 1) on .a _
  | ldhIndA8A a8 => exact ignoresDebugSwitch_of_exec (fun _ => rfl) fun s on => storeAt_setDebug (s.advancePc 1) on _ _
  | inc o => exact ignoresDebugSwitch_of_exec (exec_inc · o) fun s on => incOperand_setDebug s on o
  | dec o => exact ignoresDebugSwitch_of_exec (exec_dec · o) fun s on => decOperand_setDebug s on o
  | rlc o => exact ignoresDebugSwitch_of_exec (exec_rlc · o) fun s on => rotateOperand_setDebug s on _ _ o
  | rrc o => exact ignoresDebugSwitch_of_exec (exec_rrc · o) fun s on => rotateOperand_setDebug s on _ _ o
  | rl o => exact ignoresDebugSwitch_of_exec (exec_rl · o) fun s on => rotateOperand_setDebug s on _ _ o
  | rr o => exact ignoresDebugSwitch_of_exec (exec_rr · o) fun s on => rotateOperand_setDebug s on _ _ o
  | sla o => exact ignoresDebugSwitch_of_exec (exec_sla · o) fun s on => rotateOperand_setDebug s on _ _ o
  | sra o => exact ignoresDebugSwitch_of_exec (exec_sra · o) fun s on => rotateOperand_setDebug s on _ _ o
  | srl o => exact ignoresDebugSwitch_of_exec (exec_srl · o) fun s on => rotateOperand_setDebug s on _ _ o
  | add o =>
    exact ignoresDebugSwitch_of_exec (exec_add · o) fun s on => readOperandThen_setDebug s on o (addA_setDebug s on)
  | sub o =>
    exact ignoresDebugSwitch_of_exec (exec_sub · o) fun s on => readOperandThen_setDebug s on o (subA_setDebug s on)
  | and8 o =>
    exact ignoresDebugSwitch_of_exec (exec_and8 · o) fun s on => readOperandThen_setDebug s on o fun _ =>
      logicA_setDebug s on _ _
  | xor8 o =>
    exact ignoresDebugSwitch_of_exec (exec_xor8 · o) fun s on => readOperandThen_setDebug s on o fun _ =>
      logicA_setDebug s on _ _
  | or8 o =>
    exact ignoresDebugSwitch_of_exec (exec_or8 · o) fun s on => readOperandThen_setDebug s on o fun _ =>
      logicA_setDebug s on _ _
  | cp o =>
    exact ignoresDebugSwitch_of_exec (exec_cp · o) fun s on => readOperandThen_setDebug s on o (compareA_setDebug s on)
  | bit b o => exact ignoresDebugSwitch_of_exec (exec_bit · b o) fun s on => readOperandThen_setDebug s on o fun _ => rfl
  | incWide w =>
    refine ignoresDebugSwitch_of_exec (exec_incWide · w) fun s on => ?_
    rw [incWide, setDebug_getWide, setDebug_setWide]
    rfl
  | decWide w =>
    refine ignoresDebugSwitch_of_exec (exec_decWide · w) fun s on => ?_
    rw [decWide, setDebug_getWide, setDebug_setWide]
    rfl
  | push p =>
    refine ignoresDebugSwitch_of_exec (exec_push · p) fun s on => ?_
    rw [pushPair, setDebug_getPair]
    exact pushThen_setDebug s on _ fun _ => rfl
  | pop p =>
    exact ignoresDebugSwitch_of_exec (exec_pop · p) fun s on => popThen_setDebug s on fun v t => setDebug_setPair t on p v
  | jr cc e8 =>
    refine ignoresDebugSwitch_of_exec (exec_jr · cc e8) fun s on => ?_
    rw [setDebug_taken]
    exact jumpRelative_setDebug s on _ e8
  | jp cc a16 =>
    refine ignoresDebugSwitch_of_exec (exec_jp · cc a16) fun s on => ?_
    rw [setDebug_taken]
    exact jumpAbsolute_setDebug s on _ a16
  | call cc a16 =>
    refine ignoresDebugSwitch_of_exec (exec_call · cc a16) fun s on => ?_
    rw [setDebug_taken]
    exact callAbsolute_setDebug s on _ a16
  | retCond cc =>
    refine ignoresDebugSwitch_of_exec (exec_retCond · cc) fun s on => ?_
    rw [setDebug_taken]
    exact returnPop_setDebug s on _
  | rlcaAcc | rrcaAcc | rlaAcc | rraAcc =>
    exact ignoresDebugSwitch_of_exec (fun _ => rfl) fun s on => rotateA_setDebug s on _ _
  | addAD8 v => exact ignoresDebugSwitch_of_exec (fun _ => rfl) fun s on => addA_setDebug (s.advancePc 1) on v
  | subD8 v => exact ignoresDebugSwitch_of_exec (fun _ => rfl) fun s on => subA_setDebug (s.advancePc 1) on v
  | cpD8 v => exact ignoresDebugSwitch_of_exec (fun _ => rfl) fun s on => compareA_setDebug (s.advancePc 1) on v
  | andD8 v | xorD8 v | orD8 v =>
    exact ignoresDebugSwitch_of_exec (fun _ => rfl) fun s on => logicA_setDebug (s.advancePc 1) on _ _
  | jpHl => exact ignoresDebugSwitch_of_exec (fun _ => rfl) fun _ _ => rfl

/-- Settles O59: the fetch and every instruction do the same, and a halted engine stops with the same report. -/
theorem stepDoesNotReadTheDebugSwitch : Obligations.StepDoesNotReadTheDebugSwitch := by
  intro s on
  constructor
  · intro t h
    have hrun : s.engine = .running := running_of_step h
    simp only [step, State.setDebug_engine, hrun, fetch_setDebug] at h ⊢
    cases hfetch : fetch s with
    | instr i u =>
      rw [hfetch] at h
      exact ignoresDebugSwitch i u t on h
    | raised u =>
      rw [hfetch] at h
      cases h
      rfl
  · intro r h
    cases he : s.engine with
    | haltedOnError report =>
      cases (step_of_halted he).symm.trans h
      exact step_of_halted (s := s.setDebug on) he
    | running =>
      obtain ⟨t, hnext, -⟩ := runningStepAnswersNext s he
      cases h.symm.trans hnext

end Sys2Proof.Proofs
end

section
/-! The decided rows (U9), and words of the opcode table. -/

namespace Sys2Proof.Proofs

open Sys2Proof Sys2Proof.Machine

/-! ### The rows the parameter takes away -/

/-- The plain rows of basis "decision" are the 40 of U9. -/
theorem plainRow_decided_iff (op : Byte) : (plainRow op).any Row.decided = true ↔ DecidedPlain op := by
  induction op using byte_of_fields with
  | h x y z => revert x y z; decide

/-- The prefixed rows of basis "decision" are the 24 of U9. -/
theorem prefixedRow_decided_iff (second : Byte) : (prefixedRow second).any Row.decided = true ↔ DecidedSecond second := by
  induction second using byte_of_fields with
  | h x y z => revert x y z; decide

/-- Without the parameter the lookup misses at every decided row (U9). -/
theorem lookup_eq_none_of_decided {cfg : Config} (hc : cfg.decidedRowsPresent = false) {key : Word}
    (h : (dispatchTable key).any Row.decided = true) : lookup cfg key = none := by
  unfold lookup
  cases hrow : dispatchTable key with
  | none => rfl
  | some row =>
    have hdec : row.decided = true := by simpa [hrow] using h
    simp [hdec, hc]

/-- Every other row of the table is found under either value (U9). -/
theorem lookup_isSome_of_not_decided {key : Word} (hrow : dispatchTable key ≠ none)
    (h : ¬ (dispatchTable key).any Row.decided = true) (cfg : Config) : (lookup cfg key).isSome = true := by
  obtain ⟨row, hsome⟩ := Option.ne_none_iff_exists'.1 hrow
  have hdec : row.decided = false := by simpa [hsome] using h
  simp [lookup, hsome, hdec]

theorem ne_prefixByte_of_decidedPlain {op : Byte} (h : DecidedPlain op) : op ≠ prefixByte := by
  rintro rfl
  exact absurd h (by decide)

/-- Settles O60: a decided key misses as an absent one does, and a key that is neither has its row. -/
theorem decidedRowsAreAbsentWithoutTheParameter : Obligations.DecidedRowsAreAbsentWithoutTheParameter := by
  refine ⟨fun s op hrun hc hop hdec => ?_, fun s second hrun hc hop hsecond hdec => ?_, fun cfg op hne habs hdec => ?_,
    fun cfg second habs hdec => ?_⟩
  · refine step_plain_miss hrun hop (ne_prefixByte_of_decidedPlain hdec) (lookup_eq_none_of_decided hc ?_)
    rw [dispatchTable_plainKey, plainRow_decided_iff]
    exact hdec
  · refine step_prefixed_miss hrun hop hsecond (lookup_eq_none_of_decided hc ?_)
    rw [dispatchTable_prefixedKey, prefixedRow_decided_iff]
    exact hdec
  · rw [← plainKey_eq_setWidth]
    refine lookup_isSome_of_not_decided ?_ ?_ cfg
    · rw [dispatchTable_plainKey, ne_eq, plainRow_eq_none_iff]
      exact not_or.2 ⟨hne, habs⟩
    · rw [dispatchTable_plainKey, plainRow_decided_iff]
      exact hdec
  · rw [← prefixedKey_eq_or]
    refine lookup_isSome_of_not_decided ?_ ?_ cfg
    · rw [dispatchTable_prefixedKey, ne_eq, prefixedRow_eq_none_iff]
      exact habs
    · rw [dispatchTable_prefixedKey, prefixedRow_decided_iff]
      exact hdec

/-! ### Words of the table -/

/-- Settles O3: the decoder runs on each word. -/
theorem tableWordsDecode : Obligations.TableWordsDecode := by
  unfold Obligations.TableWordsDecode
  decide

end Sys2Proof.Proofs
end
